-- ==== Sys2Proof/Word.lean ====
section
/-! DEFINITION. The word types of the UART timing engine (spec/00_scope.md R4, R5; spec/30_encoding.md R52). -/

namespace Sys2Proof

/-- A register or a transferred byte: `DATA_W = 8` bits (R4). -/
abbrev Byte := BitVec 8

/-- The clock divisor: `DIV_W = 16` bits (R4, R11). -/
abbrev Divisor := BitVec 16

/-- The canonical operation word `W[17:0]` (R52). -/
abbrev OpWord := BitVec 18

end Sys2Proof
end

