-- ==== Sys2Proof/Syntax.lean ====
section
/-! DEFINITION. The twelve operations of the block (spec/00_scope.md R7), one constructor per row of
spec/opcode_table.json. A field the operation ignores is kept where it is the operand of a bus write, and dropped
where the word only pads (spec/30_encoding.md R52). -/

namespace Sys2Proof

/-- The operations. A register index is a natural number (D10 allows it; log entry 8). -/
inductive Instr where
  /-- `STEP`: one host step (R72). -/
  | step
  /-- `RD_DATA`: read of index 0 (R90). -/
  | rdData
  /-- `RD_STATUS`: read of index 1 (R91). -/
  | rdStatus
  /-- `RD_DIVLO`: read of index 2 (R92). -/
  | rdDivlo
  /-- `RD_DIVHI`: read of index 3 (R93). -/
  | rdDivhi
  /-- `RD_UNMAPPED`: read of any other index (R94). -/
  | rdUnmapped (idx : Nat)
  /-- `WR_DATA`: write of index 0 (R100). -/
  | wrData (wdata : Byte)
  /-- `WR_STATUS`: write of index 1 (R101). -/
  | wrStatus (wdata : Byte)
  /-- `WR_DIVLO`: write of index 2 (R102). -/
  | wrDivlo (wdata : Byte)
  /-- `WR_DIVHI`: write of index 3 (R103). -/
  | wrDivhi (wdata : Byte)
  /-- `WR_UNMAPPED`: write of any other index (R104). -/
  | wrUnmapped (idx : Nat) (wdata : Byte)
  /-- `RESET` (R130). -/
  | reset
  deriving DecidableEq, Repr

/-- The row names of the opcode table, without operands (R54). -/
inductive OpName where
  | step | rdData | rdStatus | rdDivlo | rdDivhi | rdUnmapped
  | wrData | wrStatus | wrDivlo | wrDivhi | wrUnmapped | reset
  deriving DecidableEq, Repr

/-- The row of the opcode table an operation belongs to. -/
def Instr.opName : Instr → OpName
  | .step => .step
  | .rdData => .rdData
  | .rdStatus => .rdStatus
  | .rdDivlo => .rdDivlo
  | .rdDivhi => .rdDivhi
  | .rdUnmapped _ => .rdUnmapped
  | .wrData _ => .wrData
  | .wrStatus _ => .wrStatus
  | .wrDivlo _ => .wrDivlo
  | .wrDivhi _ => .wrDivhi
  | .wrUnmapped _ _ => .wrUnmapped
  | .reset => .reset

/-- The five register reads (R7). -/
def Instr.isRead (i : Instr) : Bool :=
  match i.opName with
  | .rdData | .rdStatus | .rdDivlo | .rdDivhi | .rdUnmapped => true
  | .step | .wrData | .wrStatus | .wrDivlo | .wrDivhi | .wrUnmapped | .reset => false

/-- The five register writes (R7). -/
def Instr.isWrite (i : Instr) : Bool :=
  match i.opName with
  | .wrData | .wrStatus | .wrDivlo | .wrDivhi | .wrUnmapped => true
  | .step | .rdData | .rdStatus | .rdDivlo | .rdDivhi | .rdUnmapped | .reset => false

end Sys2Proof
end

