-- ==== Sys2Proof/WellFormed.lean ====
section
/-! DEFINITION. Which terms of `Instr` are operations of the canonical word: an unmapped index is none of 0 to 3, and
the word has room for it (spec/30_encoding.md R52, R54). -/

namespace Sys2Proof

/-- `NREG = 4`: the indices 0 to 3 are mapped (R4, R31). -/
def numRegs : Nat := 4

/-- The canonical operation word carries an 8-bit index (R52). -/
def wordIndices : Nat := 2 ^ 8

/-- R54: the unmapped rows hold the indices 4 to 255 of the word. -/
def unmappedIndex (idx : Nat) : Bool := decide (numRegs ≤ idx) && decide (idx < wordIndices)

/-- The well-formed operations: those the canonical word can spell. -/
def Instr.wellFormed : Instr → Bool
  | .rdUnmapped idx | .wrUnmapped idx _ => unmappedIndex idx
  | .step | .rdData | .rdStatus | .rdDivlo | .rdDivhi => true
  | .wrData _ | .wrStatus _ | .wrDivlo _ | .wrDivhi _ | .reset => true

end Sys2Proof
end

