-- ==== Sys2Proof/Decode.lean ====
section
/-! DEFINITION. The operation word: decoder, encoder, and the opcode table in match and mask form
(spec/30_encoding.md R52, R54, R55, R57). The bytes of a word are a layout of this model (log entry 10). -/

namespace Sys2Proof

/-- `kind = W[17:16]` (R52). -/
def wordKind (w : OpWord) : BitVec 2 := w.extractLsb' 16 2

/-- `idx = W[15:8]` (R52). -/
def wordIdx (w : OpWord) : BitVec 8 := w.extractLsb' 8 8

/-- `data = W[7:0]` (R52). -/
def wordData (w : OpWord) : Byte := w.extractLsb' 0 8

/-- The read of an index: compared whole with 0 to 3, any other index is unmapped (R32, R54). -/
def readOp (idx : Nat) : Instr :=
  match idx with
  | 0 => .rdData
  | 1 => .rdStatus
  | 2 => .rdDivlo
  | 3 => .rdDivhi
  | n + 4 => .rdUnmapped (n + 4)

/-- The write of a byte to an index (R32, R54). -/
def writeOp (idx : Nat) (wdata : Byte) : Instr :=
  match idx with
  | 0 => .wrData wdata
  | 1 => .wrStatus wdata
  | 2 => .wrDivlo wdata
  | 3 => .wrDivhi wdata
  | n + 4 => .wrUnmapped (n + 4) wdata

/-- A bus transaction `(we, idx, wdata)`; a read ignores `wdata` (R51). -/
def busOp (we : Bool) (idx : Nat) (wdata : Byte) : Instr :=
  if we then writeOp idx wdata else readOp idx

/-- The decoder, total on all `2^18` words (R54). -/
def decodeWord (w : OpWord) : Instr :=
  match (wordKind w).toNat with
  | 0 => .step
  | 1 => readOp (wordIdx w).toNat
  | 2 => writeOp (wordIdx w).toNat (wordData w)
  | _ => .reset

/-- Why a list of bytes is no operation word. -/
inductive DecodeError where
  /-- Raised by `decode`: fewer than the three bytes of a word are left. Safe: nothing runs. -/
  | endOfBytes
  /-- Raised by `decode`: a bit above bit 17 is set, so the number is no 18-bit word (R52). Safe: nothing runs. -/
  | notAnOperationWord
  deriving DecidableEq, Repr

/-- The operation at the head of a list of bytes (three bytes, least significant first), and the bytes after it. -/
def decode : List Byte → Except DecodeError (Instr × List Byte)
  | b0 :: b1 :: b2 :: rest =>
    if b2.toNat < 4 then .ok (decodeWord (b2.setWidth 2 ++ b1 ++ b0), rest) else .error .notAnOperationWord
  | [] | [_] | [_, _] => .error .endOfBytes

/-- A word from its three fields. -/
def assembleWord (kind : BitVec 2) (idx : BitVec 8) (data : Byte) : OpWord := kind ++ idx ++ data

/-- The canonical word of an operation: every ignored field 0 (R52, R54, R57). -/
def encode : Instr → OpWord
  | .step => assembleWord 0#2 0#8 0#8
  | .rdData => assembleWord 1#2 0#8 0#8
  | .rdStatus => assembleWord 1#2 1#8 0#8
  | .rdDivlo => assembleWord 1#2 2#8 0#8
  | .rdDivhi => assembleWord 1#2 3#8 0#8
  | .rdUnmapped idx => assembleWord 1#2 (BitVec.ofNat 8 idx) 0#8
  | .wrData wdata => assembleWord 2#2 0#8 wdata
  | .wrStatus wdata => assembleWord 2#2 1#8 wdata
  | .wrDivlo wdata => assembleWord 2#2 2#8 wdata
  | .wrDivhi wdata => assembleWord 2#2 3#8 wdata
  | .wrUnmapped idx wdata => assembleWord 2#2 (BitVec.ofNat 8 idx) wdata
  | .reset => assembleWord 3#2 0#8 0#8

/-- The three bytes of a word, least significant first, the top six bits 0 (log entry 10). -/
def wordBytes (w : OpWord) : List Byte :=
  [w.extractLsb' 0 8, w.extractLsb' 8 8, (w.extractLsb' 16 2).setWidth 8]

/-- The canonical spelling of a word: the fields its kind ignores set to 0 (R52). -/
def canonicalWord (w : OpWord) : OpWord :=
  match (wordKind w).toNat with
  | 0 => w &&& 0x30000#18
  | 1 => w &&& 0x3FF00#18
  | 2 => w
  | _ => w &&& 0x30000#18

/-- A row of the opcode table in match and mask form (R54). -/
structure OpRow where
  /-- The row's name. -/
  name : OpName
  /-- The value of the fixed bits. -/
  value : OpWord
  /-- The fixed bits. -/
  mask : OpWord
  deriving DecidableEq, Repr

/-- The opcode table (R54). -/
def opcodeRows : List OpRow :=
  [⟨.step, 0x00000#18, 0x30000#18⟩, ⟨.rdData, 0x10000#18, 0x3FF00#18⟩, ⟨.rdStatus, 0x10100#18, 0x3FF00#18⟩,
   ⟨.rdDivlo, 0x10200#18, 0x3FF00#18⟩, ⟨.rdDivhi, 0x10300#18, 0x3FF00#18⟩, ⟨.rdUnmapped, 0x10000#18, 0x30000#18⟩,
   ⟨.wrData, 0x20000#18, 0x3FF00#18⟩, ⟨.wrStatus, 0x20100#18, 0x3FF00#18⟩, ⟨.wrDivlo, 0x20200#18, 0x3FF00#18⟩,
   ⟨.wrDivhi, 0x20300#18, 0x3FF00#18⟩, ⟨.wrUnmapped, 0x20000#18, 0x30000#18⟩, ⟨.reset, 0x30000#18, 0x30000#18⟩]

/-- The fixed bits of the row are as the row says. -/
def OpRow.hits (r : OpRow) (w : OpWord) : Bool := w &&& r.mask == r.value

/-- How many bits a mask fixes. -/
def maskBits (m : OpWord) : Nat := (List.range 18).countP fun k => m.getLsbD k

/-- Of the rows that match, the one with the most mask bits wins (R54). -/
def winningRow (w : OpWord) : List OpRow → Option OpRow
  | [] => none
  | r :: rest =>
    match winningRow w rest with
    | none => if r.hits w then some r else none
    | some best => if r.hits w && decide (maskBits best.mask ≤ maskBits r.mask) then some r else some best

/-- The host's entry: the operation of `w`, the bits above `nbits` being 0. A word is three bytes, so a number of more
than three bytes is no operation word. -/
def decodeTableWord (nbits w : Nat) : Option Instr :=
  if w % 2 ^ nbits < 2 ^ 24 then
    match decode [BitVec.ofNat 8 (w % 2 ^ nbits), BitVec.ofNat 8 (w % 2 ^ nbits / 2 ^ 8),
      BitVec.ofNat 8 (w % 2 ^ nbits / 2 ^ 16)] with
    | .ok (i, _) => some i
    | .error _ => none
  else none

end Sys2Proof
end

