-- ==== Sys2Proof/Config.lean ====
section
/-! DEFINITION. What the spec leaves open: the step quantum and the draw `RX_INIT`, as constants without a body
(spec/00_scope.md R4; spec/92_eei_decisions.md D3, D9). -/

namespace Sys2Proof

/-- The step quantum `Q = QN / QD` of an instance, in peripheral clock periods per host step (R4). -/
structure Quantum where
  /-- `QN`: scaled units that one `STEP` takes off a countdown. -/
  qn : Nat
  /-- `QD`: scaled units in one tick. -/
  qd : Nat
  deriving DecidableEq, Repr

/-- R4: both `QN` and `QD` are positive integers. -/
def Quantum.wf (q : Quantum) : Bool := decide (0 < q.qn) && decide (0 < q.qd)

/-- `QN - 1` of the instance in hand: OPEN, no value is known (D3, N1). DESIGN CHOICE, log entry 5. -/
opaque Config.qnBelow : Nat

/-- `QD - 1` of the instance in hand: OPEN, no value is known (D3, N1). DESIGN CHOICE, log entry 5. -/
opaque Config.qdBelow : Nat

/-- The instance's quantum: any pair of positive integers. -/
def Config.quantum : Quantum := ⟨Config.qnBelow + 1, Config.qdBelow + 1⟩

/-- `RX_INIT`: the byte in the cache after the `n`-th reset whose prime found no byte; any 8-bit value, drawn afresh
at each such reset (R21, D9, U1). A free value: nothing constrains it. DESIGN CHOICE, log entry 6. -/
opaque Config.rxInit : Nat → Byte

end Sys2Proof
end

