-- ==== Sys2Proof/Machine/Params.lean ====
section
/-! DEFINITION. The parameters the spec fixes (spec/00_scope.md R4). They stand here, each as one named constant, so that
a reader who learns another value can change it in one place (spec/90_conflicts.md C1, C11). -/

namespace Sys2Proof.Machine

/-- `BITS_PER_BYTE = 9`: the bit times one byte occupies (R4; C1: not 10). -/
def bitsPerByte : Nat := 9

/-- `DIV_RESET = 24`: the divisor after reset (R4, R21; C11). -/
def divReset : Divisor := 0x0018#16

/-- The largest value the 16-bit divisor takes (R11). -/
def divMax : Nat := 65535

/-- The largest value a countdown can be armed with, in scaled units (R22). -/
def armMax (q : Quantum) : Nat := divMax * bitsPerByte * q.qd

/-- `CNT_W`: the width a countdown needs in hardware (R4, R23). The model holds countdowns as natural numbers. -/
def cntWidth (q : Quantum) : Nat := Nat.log2 (armMax q) + 1

end Sys2Proof.Machine
end

