-- ==== Sys2Proof/Machine/State.lean ====
section
/-! DEFINITION. The state of the machine: the block's four elements (spec/10_state.md R10), the constants of its
instance (spec/00_scope.md R4), and the collaborators' side as the oracle and the log that R20 asks a model for. -/

namespace Sys2Proof.Machine

/-- The output record of an operation (R60). -/
structure Output where
  /-- The byte a read returns; absent otherwise. -/
  rdata : Option Byte := none
  /-- The operation consumed a source byte. -/
  srcTake : Bool := false
  /-- The byte handed to the sink; present only for an accepted `WR_DATA`. -/
  sink : Option Byte := none
  /-- The dropped byte; present only for a rejected `WR_DATA`. -/
  diag : Option Byte := none
  deriving DecidableEq, Repr

/-- One operation as the environment presents it, with what the source did since the operation before (R7, R80, U4). -/
structure Presented where
  /-- The operation, as its canonical word or any other spelling of it (R52). -/
  word : OpWord
  /-- Bytes that reached the source since the operation before. -/
  arrivals : List Byte
  /-- What `has_more()` answers while this operation runs. -/
  hasMore : Bool
  deriving DecidableEq, Repr

/-- The state. The first four fields are the block's; the rest are the instance's constants and the environment. -/
structure State where
  /-- `div`, the clock divisor (R11). -/
  div : Divisor
  /-- `tx_cnt`, the outbound countdown in units of `1/QD` tick (R12). -/
  txCnt : Nat
  /-- `rx_cnt`, the inbound countdown in units of `1/QD` tick (R13). -/
  rxCnt : Nat
  /-- `rx_byte`, the cached inbound byte (R14). -/
  rxByte : Byte
  /-- `QN` and `QD`: constants of the instance, which no operation changes (R4). -/
  quantum : Quantum
  /-- The source's bytes not yet fetched, next first (R80, R86). -/
  srcPending : List Byte
  /-- What the source's `has_more()` answers now (R80). -/
  srcHasMore : Bool
  /-- The source's adapter can probe for readiness (R80, D20). -/
  srcCanProbe : Bool
  /-- A sink is connected (R84, D18). -/
  sinkBound : Bool
  /-- The bytes a connected sink has received, oldest first (R84, R86). -/
  sink : List Byte
  /-- The dropped bytes reported, oldest first (R85, R86). -/
  diag : List Byte
  /-- The output record of the latest operation (R60). -/
  out : Output
  /-- The operations the environment will present, next first (R7, R16). -/
  schedule : List Presented
  /-- The draws of `RX_INIT` made so far: the model's own counter (D9, log entry 6). -/
  draws : Nat
  deriving DecidableEq, Repr

/-- Why the machine stops with a fault: never. The block raises no exception, fault or trap and no operation can fail
(R110), so there is no constructor; that is safe, for there is nothing that a claim could miss. -/
inductive Fault where
  deriving DecidableEq, Repr

/-- Why the machine refuses. -/
inductive Refusal where
  /-- Raised by an arm of `exec` whose operation has no meaning yet (none is left). Safe: nothing runs. -/
  | notModelled (mnemonic : String)
  /-- Raised by `memRead` and `memWrite`, never by `exec` or `step`: the bus asked for an access of `bytes` bytes, and
  the block has operations of one byte only (R35, U8). Safe: nothing runs. -/
  | accessWidth (bytes : Nat)
  deriving DecidableEq, Repr

/-- The machine right after reset (R21, R130), the reset of an instance whose source has no byte yet: the divisor at its
default, both countdowns 0, the cache holding the draw `RX_INIT` (log entry 6), nothing sent, nothing presented (log
entries 1, 4 and 7), and the quantum of the instance in hand, whatever it is (log entry 5). -/
def State.reset : State where
  div := divReset
  txCnt := 0
  rxCnt := 0
  rxByte := Config.rxInit 0
  quantum := Config.quantum
  srcPending := []
  srcHasMore := true
  srcCanProbe := false
  sinkBound := true
  sink := []
  diag := []
  out := {}
  schedule := []
  draws := 1

end Sys2Proof.Machine
end

