-- ==== Sys2Proof/Machine/Ops.lean ====
section
/-! DEFINITION. The named operations over the state: the arithmetic of the countdowns (spec/40_timing_engine.md R70, R71),
the ports and the byte cache (spec/41_byte_cache.md R80 to R85), and the updates the meanings are made of. The block
takes no exception and returns from none (spec/60_exceptions.md R110, R116, R117), so there is no operation for it. -/

namespace Sys2Proof.Machine

/-- `arm(d) = d * 9 * QD`, exact (R70). -/
def arm (q : Quantum) (d : Divisor) : Nat := d.toNat * bitsPerByte * q.qd

/-- `dec(c) = c - QN if c > QN, else 0` (R71). -/
def dec (q : Quantum) (c : Nat) : Nat := if q.qn < c then c - q.qn else 0

/-- `expired(c) = (c > 0 and c <= QN)` (R71). -/
def expired (q : Quantum) (c : Nat) : Bool := decide (0 < c) && decide (c ≤ q.qn)

/-- The steps from a countdown of `c` to its expiry: `ceil(c / QN)` (R77). -/
def stepsToExpiry (q : Quantum) (c : Nat) : Nat := (c + q.qn - 1) / q.qn

/-- Replace the divisor. -/
def State.setDiv (d : Divisor) (s : State) : State := { s with div := d }

/-- Replace the outbound countdown. -/
def State.setTxCnt (c : Nat) (s : State) : State := { s with txCnt := c }

/-- Replace the inbound countdown. -/
def State.setRxCnt (c : Nat) (s : State) : State := { s with rxCnt := c }

/-- Replace the cached byte, whole (R14). -/
def State.setRxByte (b : Byte) (s : State) : State := { s with rxByte := b }

/-- `SrcTake()`: the source moves to its next byte (R80). -/
def State.srcTake (s : State) : State := { s with srcPending := s.srcPending.tail }

/-- The environment's move on the source: bytes arrive behind those waiting, and `has_more()` takes a value (R80, U4). -/
def State.srcEvent (arrivals : List Byte) (hasMore : Bool) (s : State) : State :=
  { s with srcPending := s.srcPending ++ arrivals, srcHasMore := hasMore }

/-- `SinkPut(b)`: a connected sink receives the byte, an unconnected one discards it (R84, D18). -/
def State.sinkPut (b : Byte) (s : State) : State :=
  { s with sink := if s.sinkBound then s.sink ++ [b] else s.sink }

/-- `Diag(b)`: the report of a dropped byte (R85). -/
def State.diagPut (b : Byte) (s : State) : State := { s with diag := s.diag ++ [b] }

/-- The output record of the operation (R60). -/
def State.emit (o : Output) (s : State) : State := { s with out := o }

/-- Replace the operations to come. -/
def State.setSchedule (ps : List Presented) (s : State) : State := { s with schedule := ps }

/-- One draw of `RX_INIT` into the cache: a fresh free value (R130, D9, log entry 6). -/
def State.drawRxInit (s : State) : State := { s with rxByte := Config.rxInit s.draws, draws := s.draws + 1 }

/-- `is_exhausted()`, one of the three calls of R80. When it is true the spec does not say (N19): here exactly while no byte
waits, so not for good where a byte arrives later. DESIGN CHOICE, log entry 14. -/
def State.isExhausted (s : State) : Bool := s.srcPending.isEmpty

/-- The source lets a waiting byte be read now: `has_more()`, or the adapter cannot probe (R80, D20, C6). -/
def State.readable (s : State) : Bool := s.srcHasMore || !s.srcCanProbe

/-- `src_avail = (not is_exhausted()) and has_more()`, and `not is_exhausted()` without a probe (R80, D20). -/
def State.srcAvail (s : State) : Bool := !s.isExhausted && s.readable

/-- `try_get_next_byte()`: the byte the source would yield; `none` exactly when `src_avail = 0` (R80). -/
def State.tryGetNextByte (s : State) : Option Byte := if s.readable then s.srcPending.head? else none

/-- `Refill()`: one fetch attempt; a byte replaces the cached one and leaves the source, no byte leaves the cache as it
was (R81, C5). -/
def State.refill (s : State) : State :=
  match s.tryGetNextByte with
  | some b => (s.setRxByte b).srcTake
  | none => s

/-- The prime inside `RESET`: one `Refill`, or the draw `RX_INIT` where the source has no byte (R130). -/
def State.prime (s : State) : State :=
  match s.tryGetNextByte with
  | some b => (s.setRxByte b).srcTake
  | none => s.drawRxInit

/-- `Peek()`: the cached byte; nothing changes (R82). -/
def State.peek (s : State) : Byte := s.rxByte

/-- Both countdowns lowered by one quantum, each on its own (R71, R72). -/
def State.lowerCountdowns (s : State) : State :=
  (s.setTxCnt (dec s.quantum s.txCnt)).setRxCnt (dec s.quantum s.rxCnt)

/-- `tx_cnt <- arm(div)` (R70, R100). -/
def State.armTx (s : State) : State := s.setTxCnt (arm s.quantum s.div)

/-- `rx_cnt <- arm(div)` (R70, R90). -/
def State.armRx (s : State) : State := s.setRxCnt (arm s.quantum s.div)

/-- The environment presents one operation: the source's move before it, and the operations that follow it. -/
def State.present (p : Presented) (rest : List Presented) (s : State) : State :=
  (s.srcEvent p.arrivals p.hasMore).setSchedule rest

/-- No operation is presented: the block stays as it is and its ports are quiet (R7, R60; log entry 2). -/
def State.idle (s : State) : State := s.emit {}

/-- The state an outcome goes on with, if it does. -/
def nextState? : Host.Outcome State Fault Refusal → Option State
  | .next s => some s
  | .fault _ => none
  | .refused _ => none

end Sys2Proof.Machine
end

