-- ==== Sys2Proof/Machine/Flags.lean ====
section
/-! DEFINITION. The two status flags, computed when they are read and stored nowhere (spec/10_state.md R17;
spec/40_timing_engine.md R75, R76), and the status byte made of them (spec/30_encoding.md R55). -/

namespace Sys2Proof.Machine

/-- `tx_busy = (tx_cnt > 0)`, the flag `TXBUSY` (R75). -/
def State.txBusy (s : State) : Bool := decide (0 < s.txCnt)

/-- `rx_ready = (rx_cnt = 0) and src_avail`, the flag `RXAVAIL` (R76; C10: no third condition). -/
def State.rxReady (s : State) : Bool := decide (s.rxCnt = 0) && s.srcAvail

/-- `{0b000000, TXBUSY, RXAVAIL}` (R55, R91). -/
def statusByte (s : State) : Byte := 0#6 ++ BitVec.ofBool s.txBusy ++ BitVec.ofBool s.rxReady

end Sys2Proof.Machine
end

