-- ==== Sys2Proof/Machine/Operands.lean ====
section
/-! DEFINITION. Operand assembly: the two halves of the divisor (spec/30_encoding.md R55; spec/20_memory.md R34). A byte
operand is used as it stands. -/

namespace Sys2Proof.Machine

/-- `div[7:0]`, the register `DIVLO` (R34). -/
def divLo (d : Divisor) : Byte := d.extractLsb' 0 8

/-- `div[15:8]`, the register `DIVHI` (R34). -/
def divHi (d : Divisor) : Byte := d.extractLsb' 8 8

/-- `div = {DIVHI, DIVLO}` (R55). -/
def composeDiv (hi lo : Byte) : Divisor := hi ++ lo

/-- `{div[15:8], wdata}` (R55, R102). -/
def replaceLo (d : Divisor) (wdata : Byte) : Divisor := composeDiv (divHi d) wdata

/-- `{wdata, div[7:0]}` (R55, R103). -/
def replaceHi (d : Divisor) (wdata : Byte) : Divisor := composeDiv wdata (divLo d)

end Sys2Proof.Machine
end

