-- ==== Sys2Proof/Machine/RegisterReads.lean ====
section
/-! DEFINITION. The five register reads (spec/42_register_reads.md R90 to R95). -/

namespace Sys2Proof.Machine

/-- What every read shares: the byte goes out, and no port is touched (R95). -/
def readResult (rdata : Byte) (s : State) : Host.Outcome State Fault Refusal := .next (s.emit { rdata := some rdata })

/-- `RD_DATA`: the cached byte, whatever the countdown; the inbound countdown is armed anew (R90). -/
def execRdData (s : State) : Host.Outcome State Fault Refusal := readResult s.peek s.armRx

/-- `RD_STATUS`: the two flags as they are now (R91). -/
def execRdStatus (s : State) : Host.Outcome State Fault Refusal := readResult (statusByte s) s

/-- `RD_DIVLO`: the low half of the divisor (R92). -/
def execRdDivlo (s : State) : Host.Outcome State Fault Refusal := readResult (divLo s.div) s

/-- `RD_DIVHI`: the high half of the divisor (R93). -/
def execRdDivhi (s : State) : Host.Outcome State Fault Refusal := readResult (divHi s.div) s

/-- `RD_UNMAPPED`: 0, whatever the index; nothing is armed (R94). -/
def execRdUnmapped (_idx : Nat) (s : State) : Host.Outcome State Fault Refusal := readResult 0x00#8 s

end Sys2Proof.Machine
end

