-- ==== Sys2Proof/Machine/RegisterWrites.lean ====
section
/-! DEFINITION. The five register writes (spec/43_register_writes.md R100 to R105). -/

namespace Sys2Proof.Machine

/-- A write that touches no port: an empty output record (R105). -/
def quietWrite (s : State) : Host.Outcome State Fault Refusal := .next (s.emit {})

/-- `WR_DATA`: while busy the byte is dropped and reported, the state unchanged; while idle it goes to the sink at once
and the outbound countdown is armed (R100). -/
def execWrData (wdata : Byte) (s : State) : Host.Outcome State Fault Refusal :=
  .next (if s.txBusy then (s.diagPut wdata).emit { diag := some wdata }
    else ((s.sinkPut wdata).armTx).emit { sink := some wdata })

/-- `WR_STATUS`: status bits are read-only, so nothing (R101). -/
def execWrStatus (_wdata : Byte) (s : State) : Host.Outcome State Fault Refusal := quietWrite s

/-- `WR_DIVLO`: the low half replaced (R102). -/
def execWrDivlo (wdata : Byte) (s : State) : Host.Outcome State Fault Refusal :=
  quietWrite (s.setDiv (replaceLo s.div wdata))

/-- `WR_DIVHI`: the high half replaced (R103). -/
def execWrDivhi (wdata : Byte) (s : State) : Host.Outcome State Fault Refusal :=
  quietWrite (s.setDiv (replaceHi s.div wdata))

/-- `WR_UNMAPPED`: nothing, whatever the index and the byte (R104). -/
def execWrUnmapped (_idx : Nat) (_wdata : Byte) (s : State) : Host.Outcome State Fault Refusal := quietWrite s

end Sys2Proof.Machine
end

