-- ==== Sys2Proof/Machine/Reset.lean ====
section
/-! DEFINITION. The operation `RESET` (spec/70_reset_and_hazards.md R130, R132). -/

namespace Sys2Proof.Machine

/-- `RESET`: the divisor to its default, both countdowns to 0, the cache primed by one fetch attempt (R130). -/
def execReset (s : State) : Host.Outcome State Fault Refusal :=
  .next ((((s.setDiv divReset).setTxCnt 0).setRxCnt 0).prime.emit { srcTake := s.srcAvail })

end Sys2Proof.Machine
end

