-- ==== Sys2Proof/Machine/TimingEngine.lean ====
section
/-! DEFINITION. The operation `STEP` (spec/40_timing_engine.md R72 to R74, R79). -/

namespace Sys2Proof.Machine

/-- `STEP`: both countdowns lowered; one `Refill` if the inbound one expires (R72, R74). -/
def execStep (s : State) : Host.Outcome State Fault Refusal :=
  let lowered := s.lowerCountdowns
  let filled := if expired s.quantum s.rxCnt then lowered.refill else lowered
  .next (filled.emit { srcTake := expired s.quantum s.rxCnt && s.srcAvail })

end Sys2Proof.Machine
end

