-- ==== Sys2Proof/Machine/Dispatch.lean ====
section
/-! DEFINITION. The dispatch: one arm per operation. -/

namespace Sys2Proof.Machine

/-- The meaning of an operation. -/
def exec (i : Instr) (s : State) : Host.Outcome State Fault Refusal :=
  match i with
  | .step => Sys2Proof.Machine.execStep s
  | .rdData => Sys2Proof.Machine.execRdData s
  | .rdStatus => Sys2Proof.Machine.execRdStatus s
  | .rdDivlo => Sys2Proof.Machine.execRdDivlo s
  | .rdDivhi => Sys2Proof.Machine.execRdDivhi s
  | .rdUnmapped idx => Sys2Proof.Machine.execRdUnmapped idx s
  | .wrData wdata => Sys2Proof.Machine.execWrData wdata s
  | .wrStatus wdata => Sys2Proof.Machine.execWrStatus wdata s
  | .wrDivlo wdata => Sys2Proof.Machine.execWrDivlo wdata s
  | .wrDivhi wdata => Sys2Proof.Machine.execWrDivhi wdata s
  | .wrUnmapped idx wdata => Sys2Proof.Machine.execWrUnmapped idx wdata s
  | .reset => Sys2Proof.Machine.execReset s

end Sys2Proof.Machine
end

