-- ==== Sys2Proof/Machine/Step.lean ====
section
/-! DEFINITION. One step of the machine: the environment presents its next operation, and the block performs it whole
(spec/00_scope.md R7; spec/20_memory.md R37, R38). -/

namespace Sys2Proof.Machine

/-- The next operation of the schedule is decoded and performed; where the environment presents none, nothing happens
(R7; log entries 1 and 2). -/
def step (s : State) : Host.Outcome State Fault Refusal :=
  match s.schedule with
  | [] => .next s.idle
  | p :: rest => exec (decodeWord p.word) (s.present p rest)

/-- `s` with the operation of the word `w` presented next, ahead of those already scheduled, the source left as it is.
`w` is cut to the 18 bits of an operation word. -/
def State.withFetchWord (s : State) (nbits w : Nat) : State :=
  s.setSchedule (⟨BitVec.ofNat 18 (w % 2 ^ nbits), [], s.srcHasMore⟩ :: s.schedule)

end Sys2Proof.Machine
end

