-- ==== Sys2Proof/Machine/Bus.lean ====
section
/-! DEFINITION. The boundary to the Register Bus: an access of a width to an index (spec/00_scope.md R6; spec/20_memory.md
R31, R35). The bus has already subtracted `BASE` and selected the block (spec/30_encoding.md R51). -/

namespace Sys2Proof.Machine

/-- `MemRead(i, size)`: the read of index `i`; 1 byte is the only legal size (R6, R35). -/
def memRead (idx size : Nat) (s : State) : Host.Outcome State Fault Refusal :=
  if size = 1 then exec (readOp idx) s else .refused (.accessWidth size)

/-- `MemWrite(i, size, v)`: the write of a byte to index `i`; 1 byte is the only legal size (R6, R35). -/
def memWrite (idx size : Nat) (wdata : Byte) (s : State) : Host.Outcome State Fault Refusal :=
  if size = 1 then exec (writeOp idx wdata) s else .refused (.accessWidth size)

end Sys2Proof.Machine
end

