-- ==== Sys2Proof/Machine/Clocked.lean ====
section
/-! DEFINITION. The clocked rendering of the block (spec/30_encoding.md R50, R53, R59): one rising edge of `clk` performs
one or two operations. The event model of `exec` and `step` is the normative one (R59). -/

namespace Sys2Proof.Machine

/-- The inputs at a rising edge of `clk` (R50). The source's signals come from the state (R80; log entry 11). -/
structure InPorts where
  /-- Synchronous reset, active high. -/
  rst : Bool
  /-- The bus presents a register access in this cycle. -/
  sel : Bool
  /-- With `sel`: 1 is a write, 0 is a read. -/
  we : Bool
  /-- With `sel`: the register index. -/
  idx : Nat
  /-- With `sel` and `we`: the byte written. -/
  wdata : Byte
  deriving DecidableEq, Repr

/-- The outputs of a cycle (R50, R60). A byte is absent where the spec calls the signal not meaningful. -/
structure OutPorts where
  /-- `rdata`, valid in the cycle of a read. -/
  rdata : Option Byte
  /-- `src_take`, a pulse. -/
  srcTake : Bool
  /-- `snk_valid`, a pulse. -/
  snkValid : Bool
  /-- `snk_data`. -/
  snkData : Option Byte
  /-- `diag_valid`, a pulse. -/
  diagValid : Bool
  /-- `diag_data`. -/
  diagData : Option Byte
  deriving DecidableEq, Repr

/-- An output record on the ports (R60). -/
def Output.toPorts (o : Output) : OutPorts :=
  { rdata := o.rdata, srcTake := o.srcTake, snkValid := o.sink.isSome, snkData := o.sink
    diagValid := o.diag.isSome, diagData := o.diag }

/-- What two operations of one cycle put on the ports together. -/
def Output.merge (a b : Output) : Output :=
  { rdata := a.rdata.or b.rdata, srcTake := a.srcTake || b.srcTake, sink := a.sink.or b.sink, diag := a.diag.or b.diag }

/-- The operations of one rising edge: reset alone; else the access and then `STEP`; else `STEP` alone (R59). -/
def cycleOps (p : InPorts) : List Instr :=
  if p.rst then [.reset] else if p.sel then [busOp p.we p.idx p.wdata, .step] else [.step]

/-- The operations in order, their outputs together (R59, R60). -/
def runCycle : List Instr → Output → State → Host.Outcome State Fault Refusal
  | [], o, s => .next (s.emit o)
  | i :: rest, o, s =>
    match exec i s with
    | .next t => runCycle rest (o.merge t.out) t
    | .fault r => .fault r
    | .refused r => .refused r

/-- One rising edge of `clk` (R59). -/
def clockEdge (p : InPorts) (s : State) : Host.Outcome State Fault Refusal := runCycle (cycleOps p) {} s

end Sys2Proof.Machine
end

