-- ==== Sys2Proof/Machine/RealCountdown.lean ====
section
/-! DEFINITION. The source's own picture of the block, for the equivalence of spec/40_timing_engine.md R78: real-valued
countdowns in ticks, armed with `D * 9` and lowered by `Q` at every step, below zero too (spec/90_conflicts.md C7, C8).
It is a reference beside the model; `exec` does not use it. -/

namespace Sys2Proof.Machine

/-- The block with real-valued (rational, exact) countdowns in ticks (R78). -/
structure RealBlock where
  /-- The divisor. -/
  div : Divisor
  /-- The outbound countdown in ticks; zero or negative means idle. -/
  tx : ℚ
  /-- The inbound countdown in ticks. -/
  rx : ℚ
  /-- The cached byte. -/
  rxByte : Byte
  deriving DecidableEq

/-- `Q = QN / QD` ticks per step. -/
def realQuantum (q : Quantum) : ℚ := (q.qn : ℚ) / (q.qd : ℚ)

/-- The arming value in ticks: `D * 9`. -/
def realArm (d : Divisor) : ℚ := (d.toNat : ℚ) * (bitsPerByte : ℚ)

/-- "was positive and crosses to ≤0 within this step" (R74). -/
def crosses (q : Quantum) (r : ℚ) : Bool := decide (0 < r) && decide (r - realQuantum q ≤ 0)

/-- One operation on the real-valued block: `sample` is what `try_get_next_byte()` answers now, `draw` the draw of
`RX_INIT`. -/
def realExec (q : Quantum) (sample : Option Byte) (draw : Byte) (i : Instr) (r : RealBlock) : RealBlock × Output :=
  match i with
  | .step =>
    ({ r with
        tx := r.tx - realQuantum q
        rx := r.rx - realQuantum q
        rxByte := if crosses q r.rx then sample.getD r.rxByte else r.rxByte },
      { srcTake := crosses q r.rx && sample.isSome })
  | .rdData => ({ r with rx := realArm r.div }, { rdata := some r.rxByte })
  | .rdStatus =>
    (r, { rdata := some (0#6 ++ BitVec.ofBool (decide (0 < r.tx))
            ++ BitVec.ofBool (decide (r.rx ≤ 0) && sample.isSome)) })
  | .rdDivlo => (r, { rdata := some (divLo r.div) })
  | .rdDivhi => (r, { rdata := some (divHi r.div) })
  | .rdUnmapped _ => (r, { rdata := some 0#8 })
  | .wrData b =>
    if 0 < r.tx then (r, { diag := some b }) else ({ r with tx := realArm r.div }, { sink := some b })
  | .wrStatus _ | .wrUnmapped _ _ => (r, {})
  | .wrDivlo b => ({ r with div := replaceLo r.div b }, {})
  | .wrDivhi b => ({ r with div := replaceHi r.div b }, {})
  | .reset => ({ div := divReset, tx := 0, rx := 0, rxByte := sample.getD draw }, { srcTake := sample.isSome })

/-- The integer countdown is the real one in scaled units, stopped at 0: `max(0, QD * r)` (R78). -/
def countdownMatches (q : Quantum) (c : Nat) (r : ℚ) : Prop := (c : ℚ) = max 0 ((q.qd : ℚ) * r)

/-- The block of the model and the real-valued block stand for the same thing (R78). -/
def realMatches (s : State) (r : RealBlock) : Prop :=
  s.div = r.div ∧ countdownMatches s.quantum s.txCnt r.tx ∧ countdownMatches s.quantum s.rxCnt r.rx ∧ s.rxByte = r.rxByte

end Sys2Proof.Machine
end

