-- ==== Sys2Proof/Machine/Run.lean ====
section
/-! DEFINITION. A sequence of operations performed in order (spec/00_scope.md R7; spec/20_memory.md R38): what the
environment may present. In such a run the source moves at the block's `SrcTake` only: no byte arrives and `has_more()`
keeps its answer between the operations, which the spec leaves to the environment (R80, U4). DESIGN CHOICE, log entry 13;
a run of `step` over a schedule has the source's moves too. -/

namespace Sys2Proof.Machine

/-- The operations one after the other, stopping at the first that does not go on; the source is left as the block leaves
it (log entry 13). -/
def runOps : List Instr → State → Host.Outcome State Fault Refusal
  | [], s => .next s
  | i :: rest, s =>
    match exec i s with
    | .next t => runOps rest t
    | .fault r => .fault r
    | .refused r => .refused r

/-- How many of the operations are `STEP`: the host steps that pass. -/
def stepCount (ops : List Instr) : Nat := ops.countP fun i => decide (i = .step)

end Sys2Proof.Machine
end

