-- ==== Sys2Proof/Machine/Trace.lean ====
section
/-! DEFINITION. The trace syntax: the textual form of an operation sequence, its words, its pseudo-operations, and how
the host runs them, polling loops among them (spec/30_encoding.md R57, R58). The loops are the environment's (R58), and
so is what the source does meanwhile, which these runs hold still (DESIGN CHOICE, log entry 13). -/

namespace Sys2Proof.Machine

/-- One line of a trace (R57, R58). An expectation is the `=> v` that may follow a read. -/
inductive TraceLine where
  /-- `STEP` is `STEP 1`; `STEP n` repeats it. -/
  | step (n : Nat)
  /-- `RD i`, and `RX` (index 0) and `STATUS` (index 1). -/
  | rd (idx : Nat) (expect : Option Byte)
  /-- `WR i, v`, and `TX v` (index 0). -/
  | wr (idx : Nat) (wdata : Byte)
  /-- `RESET`. -/
  | reset
  /-- `GETDIV`: `RD 2` then `RD 3`. -/
  | getDiv
  /-- `SETDIV v`: `WR 2, v[7:0]` then `WR 3, v[15:8]`. -/
  | setDiv (v : Divisor)
  /-- `WAITTX`: poll until bit 1 of the status is 0, a `STEP` after each poll that finds it 1. -/
  | waitTx
  /-- `WAITRX`: poll until bit 0 of the status is 1, a `STEP` after each poll that finds it 0. -/
  | waitRx
  deriving DecidableEq, Repr

/-- The operations of a line that is no polling loop (R57, R58). -/
def TraceLine.expand : TraceLine → Option (List Instr)
  | .step n => some (List.replicate n .step)
  | .rd idx _ => some [readOp idx]
  | .wr idx wdata => some [writeOp idx wdata]
  | .reset => some [.reset]
  | .getDiv => some [readOp 2, readOp 3]
  | .setDiv v => some [writeOp 2 (divLo v), writeOp 3 (divHi v)]
  | .waitTx | .waitRx => none

/-- The number of a line of R57: `RD i` is `0x10000 + i * 0x100`. -/
def rdNumber (idx : Nat) : Nat := 0x10000 + idx * 0x100

/-- The number of a line of R57: `WR i, v` is `0x20000 + i * 0x100 + v`. -/
def wrNumber (idx v : Nat) : Nat := 0x20000 + idx * 0x100 + v

/-- Why the host stops running a trace. -/
inductive TraceStop where
  /-- Raised by `runLine`: a read returned `got` where the trace asserts `want` (R57). Safe: the run ends. -/
  | unexpected (want : Byte) (got : Option Byte)
  /-- Raised by the polling loops: the host's patience ran out; the block itself is never stuck (U11). Safe. -/
  | outOfPatience
  /-- Raised where the machine refuses; no operation does. Safe: the run ends. -/
  | refused (r : Refusal)
  deriving DecidableEq, Repr

/-- The state an outcome goes on with, or why the run ends. -/
def goOn : Host.Outcome State Fault Refusal → Except TraceStop State
  | .next s => .ok s
  | .fault r => nomatch r
  | .refused r => .error (.refused r)

/-- repeat: read the status; leave if `done` holds of it; `STEP` (R58). `fuel` is how many polls the host makes (log entry
12). What the source does between the polls is the environment's (R80, U4, R139): here no byte arrives and `has_more()`
keeps its answer. DESIGN CHOICE, log entry 13. -/
def waitLoop (done : Byte → Bool) : Nat → State → Except TraceStop State
  | 0, _ => .error .outOfPatience
  | fuel + 1, s =>
    match exec .rdStatus s with
    | .fault r => nomatch r
    | .refused r => .error (.refused r)
    | .next polled =>
      if (polled.out.rdata.map done).getD false then .ok polled
      else
        match exec .step polled with
        | .fault r => nomatch r
        | .refused r => .error (.refused r)
        | .next stepped => waitLoop done fuel stepped

/-- `WAITTX`: leave when bit 1 of the status is 0 (R58). -/
def waitTx (fuel : Nat) (s : State) : Except TraceStop State := waitLoop (fun v => !v.getLsbD 1) fuel s

/-- `WAITRX`: leave when bit 0 of the status is 1 (R58). A byte that arrives while the host polls is not shown (log entry
13). -/
def waitRx (fuel : Nat) (s : State) : Except TraceStop State := waitLoop (fun v => v.getLsbD 0) fuel s

/-- A read with its assertion, if any (R57). -/
def checkRead (expect : Option Byte) (s : State) : Except TraceStop State :=
  match expect with
  | none => .ok s
  | some want => if s.out.rdata = some want then .ok s else .error (.unexpected want s.out.rdata)

/-- The host runs one line; `fuel` bounds the polls of a waiting line, and the source is held still within it (log entry
13). -/
def runLine (fuel : Nat) (line : TraceLine) (s : State) : Except TraceStop State :=
  match line with
  | .waitTx => waitTx fuel s
  | .waitRx => waitRx fuel s
  | .rd idx expect =>
    match goOn (exec (readOp idx) s) with
    | .ok t => checkRead expect t
    | .error e => .error e
  | .step n => goOn (runOps (List.replicate n .step) s)
  | .wr idx wdata => goOn (exec (writeOp idx wdata) s)
  | .reset => goOn (exec .reset s)
  | .getDiv => goOn (runOps [readOp 2, readOp 3] s)
  | .setDiv v => goOn (runOps [writeOp 2 (divLo v), writeOp 3 (divHi v)] s)

/-- The host runs a trace, line by line. A trace says nothing of the source (R57), so nothing arrives there between its
lines, and `has_more()` keeps its answer. DESIGN CHOICE, log entry 13. -/
def runTrace (fuel : Nat) : List TraceLine → State → Except TraceStop State
  | [], s => .ok s
  | line :: rest, s =>
    match runLine fuel line s with
    | .ok t => runTrace fuel rest t
    | .error e => .error e

/-- The value of `GETDIV`: `{second, first}` (R58). -/
def getDivValue (s : State) : Option Divisor :=
  match exec (readOp 2) s with
  | .fault r => nomatch r
  | .refused _ => none
  | .next t =>
    match exec (readOp 3) t with
    | .fault r => nomatch r
    | .refused _ => none
    | .next u =>
      match t.out.rdata, u.out.rdata with
      | some first, some second => some (composeDiv second first)
      | _, _ => none

end Sys2Proof.Machine
end

