-- ==== Sys2Proof/Safety.lean ====
section
/-! DEFINITION. What the statements speak of: the invariant of the reachable states (spec/10_state.md R22), which states
agree on what, and what a run sends, drops and delivers (spec/41_byte_cache.md R84, R85, R87). -/

namespace Sys2Proof.Machine

/-- R22: a countdown is 0, or `A - k * QN > 0` with `A = arm(d)` for a divisor `d` it was armed with. -/
def countdownForm (q : Quantum) (c : Nat) : Prop :=
  c = 0 ∨ ∃ (d : Divisor) (k : Nat), k * q.qn < arm q d ∧ c = arm q d - k * q.qn

/-- R60: at most one of `sink` and `diag` is present, a byte read comes with neither, and an operation that consumes a
source byte does none of these. -/
abbrev Output.coherent (o : Output) : Prop :=
  (o.sink = none ∨ o.diag = none) ∧ (o.rdata ≠ none → o.sink = none ∧ o.diag = none ∧ o.srcTake = false) ∧
    (o.srcTake = true → o.sink = none ∧ o.diag = none)

/-- The invariant of the machine: the quantum is positive, both countdowns are of the form of R22, and the output record
is one R60 allows. -/
def State.Inv (s : State) : Prop :=
  s.quantum.wf = true ∧ countdownForm s.quantum s.txCnt ∧ countdownForm s.quantum s.rxCnt ∧ s.out.coherent

/-- Two states agree on the block's four elements (R10). -/
abbrev sameBlock (s t : State) : Prop :=
  s.div = t.div ∧ s.txCnt = t.txCnt ∧ s.rxCnt = t.rxCnt ∧ s.rxByte = t.rxByte

/-- Two states agree on the source, the sink's log and the diagnostic log. -/
abbrev samePorts (s t : State) : Prop := s.srcPending = t.srcPending ∧ s.sink = t.sink ∧ s.diag = t.diag

/-- Two states agree on what no operation changes: the instance's constants, the source's readiness signals, the sink's
connection and the schedule. -/
abbrev sameInstance (s t : State) : Prop :=
  s.quantum = t.quantum ∧ s.srcHasMore = t.srcHasMore ∧ s.srcCanProbe = t.srcCanProbe ∧ s.sinkBound = t.sinkBound ∧
    s.schedule = t.schedule

/-- `k` steps of the machine, stopping at the first that does not go on. -/
def runSteps : Nat → State → Host.Outcome State Fault Refusal
  | 0, s => .next s
  | k + 1, s =>
    match step s with
    | .next t => runSteps k t
    | .fault r => .fault r
    | .refused r => .refused r

/-- No operation of the list is of the row `n`. -/
abbrev lacks (n : OpName) (ops : List Instr) : Prop := ∀ i ∈ ops, i.opName ≠ n

/-- The byte a `WR_DATA` carries. -/
def dataByte? : Instr → Option Byte
  | .wrData b => some b
  | .step | .rdData | .rdStatus | .rdDivlo | .rdDivhi | .rdUnmapped _ => none
  | .wrStatus _ | .wrDivlo _ | .wrDivhi _ | .wrUnmapped _ _ | .reset => none

/-- The bytes of those `WR_DATA` of a run that found the transmitter busy, or those that found it idle, in order (R100). -/
def dataWrites (busy : Bool) : List Instr → State → List Byte
  | [], _ => []
  | i :: rest, s =>
    let here := if s.txBusy = busy then (dataByte? i).toList else []
    match exec i s with
    | .next t => here ++ dataWrites busy rest t
    | .fault r => nomatch r
    | .refused _ => here

/-- The bytes returned by those `RD_DATA` of a run that directly follow a refill; `fresh` says that a refill (or the
prime) came since the latest `RD_DATA` (R87). -/
def freshReads : Bool → List Instr → State → List Byte
  | _, [], _ => []
  | fresh, i :: rest, s =>
    match exec i s with
    | .next t =>
      if i = .rdData then (if fresh then t.out.rdata.toList else []) ++ freshReads false rest t
      else freshReads (fresh || t.out.srcTake) rest t
    | .fault r => nomatch r
    | .refused _ => []

end Sys2Proof.Machine
end

