-- ==== Sys2Proof/Certificates/Slice0/Obligations.lean ====
section
/-! DEFINITION. The statements about the machine, from the numbered rules of spec/. Their right-hand sides are written
with the spec's own formulas and numbers, not with the model's helper functions, wherever the spec gives one. The block
has no data memory and no numbered registers, so a frame speaks of the block's four elements, the ports and the instance.
A run by `runOps`, `waitTx` or `waitRx` has no move of the source but the block's own `SrcTake` (log entry 13); a
statement whose conclusion rests on that says so. -/

open Sys2Proof Sys2Proof.Machine

-- ## Encoding

/-- R52 (the spec's decision D11; the bytes are the model's, log entry 10), R54: decoding the canonical word of a
well-formed operation gives the operation back, from the word, from its bytes (whatever follows them), and from its
number. -/
def Obligations.DecodeInvertsEncode : Prop :=
  ∀ i : Instr, i.wellFormed = true →
    decodeWord (encode i) = i ∧ (∀ rest, decode (wordBytes (encode i) ++ rest) = .ok (i, rest)) ∧
      decodeTableWord 18 (encode i).toNat = some i

/-- R52 (the spec's decision D11): encoding what a word decodes to gives the word with every ignored field 0. -/
def Obligations.EncodeOfDecodeIsCanonical : Prop :=
  ∀ w : OpWord, encode (decodeWord w) = canonicalWord w

/-- R54: the decoder is total on all words, every word is a well-formed operation, and it is the operation of the row
that wins in the match and mask table. -/
def Obligations.DecoderIsTheOpcodeTable : Prop :=
  ∀ w : OpWord, (decodeWord w).wellFormed = true ∧
    (winningRow w opcodeRows).map (·.name) = some (decodeWord w).opName

/-- R52 (the spec's decision D11; the bytes are the model's, log entry 10), R56(e): two words that differ in ignored
fields only are the same operation, and a number with a bit above bit 17 is no operation word. -/
def Obligations.IgnoredFieldsDecodeAlike : Prop :=
  (∀ v w : OpWord, canonicalWord v = canonicalWord w → decodeWord v = decodeWord w) ∧
    ∀ (b0 b1 b2 : Byte) (rest : List Byte), 4 ≤ b2.toNat → decode (b0 :: b1 :: b2 :: rest) = .error .notAnOperationWord

/-- R57 (the spec's decision D12): the number of `RD i` is `0x10000 + i * 0x100` and that of `WR i, v` is `0x20000 + i
* 0x100 + v`. -/
def Obligations.TraceNumbersDecode : Prop :=
  ∀ (i : Nat) (v : Byte), i < 256 →
    decodeTableWord 18 (0x10000 + i * 0x100) = some (readOp i) ∧ (encode (readOp i)).toNat = 0x10000 + i * 0x100 ∧
      decodeTableWord 18 (0x20000 + i * 0x100 + v.toNat) = some (writeOp i v) ∧
      (encode (writeOp i v)).toNat = 0x20000 + i * 0x100 + v.toNat

/-- R54: some words written out from the table, one for each row. -/
def Obligations.SampleWordsDecode : Prop :=
  decodeWord 0x00000#18 = .step ∧ decodeWord 0x10000#18 = .rdData ∧ decodeWord 0x10100#18 = .rdStatus ∧
    decodeWord 0x10200#18 = .rdDivlo ∧ decodeWord 0x10300#18 = .rdDivhi ∧ decodeWord 0x10400#18 = .rdUnmapped 4 ∧
    decodeWord 0x20055#18 = .wrData 0x55#8 ∧ decodeWord 0x20100#18 = .wrStatus 0x00#8 ∧
    decodeWord 0x20234#18 = .wrDivlo 0x34#8 ∧ decodeWord 0x20312#18 = .wrDivhi 0x12#8 ∧
    decodeWord 0x2FF01#18 = .wrUnmapped 0xFF 0x01#8 ∧ decodeWord 0x30000#18 = .reset

-- ## The step

/-- A step performs the operation presented next, on the state in which the source has made the move presented with it
and the schedule has moved on (R7, R80; how operations and source moves are presented is the model's choice, log
entries 1 and 3). -/
def Obligations.StepRunsThePresentedOperation : Prop :=
  ∀ (s : State) (p : Presented) (rest : List Presented), s.schedule = p :: rest →
    step s = exec (decodeWord p.word)
      { s with srcPending := s.srcPending ++ p.arrivals, srcHasMore := p.hasMore, schedule := rest }

/-- Where the environment presents nothing, a step leaves the machine as it is and the ports quiet (the model's
choice, log entry 2). -/
def Obligations.StepWithoutOperationIsQuiet : Prop :=
  ∀ s : State, s.schedule = [] → step s = .next { s with out := {} }

/-- An operation word placed by `withFetchWord` is what the very next step performs, on the state before it was placed
(the model's choice, log entry 1). -/
def Obligations.PlacedWordRunsNext : Prop :=
  ∀ (s : State) (nbits w : Nat), 18 ≤ nbits → w < 2 ^ 18 →
    ∃ i, decodeTableWord nbits w = some i ∧ step (s.withFetchWord nbits w) = exec i s

/-- R38: the steps of a schedule in which the source makes no move are its operations in the order presented, none
reordered, merged, dropped or repeated (the schedule is the model's, log entry 1). -/
def Obligations.StepsRunTheScheduleInOrder : Prop :=
  ∀ (ws : List OpWord) (s : State),
    runSteps ws.length { s with schedule := ws.map fun w => ⟨w, [], s.srcHasMore⟩ } =
      runOps (ws.map decodeWord) { s with schedule := [] }

/-- R110: every operation completes in every state with every operand value, and so does every step; there is no fault
at all, and the only refusals are those of the bus boundary, of an access width other than one byte. -/
def Obligations.EveryOperationCompletes : Prop :=
  (∀ (i : Instr) (s : State), ∃ t, exec i s = .next t) ∧ (∀ s : State, ∃ t, step s = .next t) ∧ (∀ _ : Fault, False) ∧
    ∀ (s : State) (idx size : Nat) (b : Byte) (r : Refusal),
      memRead idx size s = .refused r ∨ memWrite idx size b s = .refused r → size ≠ 1

-- ## The result of each operation

/-- R72: what `STEP` does, and the words of it. That a countdown stops at 0 is R71's, the spec's decision D4. That an
empty refill keeps the cached byte is R81's, the spec's decision D8. -/
def Obligations.StepLowersAndRefills : Prop :=
  (∀ w : OpWord, w.extractLsb' 16 2 = 0#2 → decodeWord w = .step) ∧
  ∀ s : State, exec .step s = .next { s with
    txCnt := if s.quantum.qn < s.txCnt then s.txCnt - s.quantum.qn else 0
    rxCnt := if s.quantum.qn < s.rxCnt then s.rxCnt - s.quantum.qn else 0
    rxByte := if (0 < s.rxCnt ∧ s.rxCnt ≤ s.quantum.qn) ∧ s.srcAvail = true then s.srcPending.headD s.rxByte
      else s.rxByte
    srcPending := if (0 < s.rxCnt ∧ s.rxCnt ≤ s.quantum.qn) ∧ s.srcAvail = true then s.srcPending.tail
      else s.srcPending
    out := { srcTake := decide ((0 < s.rxCnt ∧ s.rxCnt ≤ s.quantum.qn) ∧ s.srcAvail = true) } }

/-- R90: `RD_DATA` returns the cached byte whatever the countdown and the source, and arms the inbound countdown with
`D * 9 * QD`; nothing else changes. With `D > 0` the receiver reads not ready after it; with `D = 0` the countdown is
0. The arming value `D * 9 * QD` is R70's, the spec's decisions D5 and D6. -/
def Obligations.ReadDataReturnsCacheAndArms : Prop :=
  (∀ s : State, exec .rdData s = .next { s with
    rxCnt := s.div.toNat * 9 * s.quantum.qd, out := { rdata := some s.rxByte } }) ∧
    ∀ s : State, s.quantum.wf = true → ∃ t, exec .rdData s = .next t ∧ (s.div = 0#16 → t.rxCnt = 0) ∧
      (s.div ≠ 0#16 → t.rxReady = false)

/-- R91: `RD_STATUS` returns `TXBUSY` in bit 1, `RXAVAIL` in bit 0 and 0 in bits 7 to 2, and changes nothing. -/
def Obligations.ReadStatusReturnsFlags : Prop :=
  ∀ s : State, ∃ v : Byte, exec .rdStatus s = .next { s with out := { rdata := some v } } ∧
    (v.getLsbD 1 = true ↔ 0 < s.txCnt) ∧ (v.getLsbD 0 = true ↔ s.rxCnt = 0 ∧ s.srcAvail = true) ∧ v.toNat < 4

/-- R80 (the spec's decisions D7, D20; log entry 3; that exhausted is no byte waiting is log entry 14): `src_avail` is
1 when a byte waits and `has_more()` says so, or the adapter cannot probe; it is 0 exactly when `try_get_next_byte()`
returns none. -/
def Obligations.SourceSignalsAgree : Prop :=
  ∀ s : State, (s.srcAvail = true ↔ s.srcPending ≠ [] ∧ (s.srcHasMore = true ∨ s.srcCanProbe = false)) ∧
    (s.tryGetNextByte = none ↔ s.srcAvail = false) ∧ ∀ b, s.tryGetNextByte = some b → s.srcPending.head? = some b

/-- R92, R93: the reads of the divisor halves return what the last write of the half wrote, or the half of 24 if there
was none since `RESET`; neither changes anything, and a write of one half does not show in the other. -/
def Obligations.DivisorReadsGiveTheLastWrite : Prop :=
  (∀ s : State, exec .rdDivlo s = .next { s with out := { rdata := some (s.div.extractLsb' 0 8) } } ∧
      exec .rdDivhi s = .next { s with out := { rdata := some (s.div.extractLsb' 8 8) } }) ∧
    (∀ (s : State) (b : Byte) (ops : List Instr), lacks .wrDivlo ops → lacks .reset ops →
      ∃ t u, runOps (.wrDivlo b :: ops) s = .next t ∧ exec .rdDivlo t = .next u ∧ u.out.rdata = some b) ∧
    (∀ (s : State) (b : Byte) (ops : List Instr), lacks .wrDivhi ops → lacks .reset ops →
      ∃ t u, runOps (.wrDivhi b :: ops) s = .next t ∧ exec .rdDivhi t = .next u ∧ u.out.rdata = some b) ∧
    (∀ (s : State) (ops : List Instr), lacks .wrDivlo ops → lacks .reset ops →
      ∃ t u, runOps (.reset :: ops) s = .next t ∧ exec .rdDivlo t = .next u ∧ u.out.rdata = some 0x18#8) ∧
    (∀ (s : State) (ops : List Instr), lacks .wrDivhi ops → lacks .reset ops →
      ∃ t u, runOps (.reset :: ops) s = .next t ∧ exec .rdDivhi t = .next u ∧ u.out.rdata = some 0x00#8) ∧
    decodeWord 0x10200#18 = .rdDivlo ∧ decodeWord 0x10300#18 = .rdDivhi

/-- R94: a read of an index of 4 or more gives 0x00 in every state, changes nothing, and every word of it decodes to
it. -/
def Obligations.ReadUnmappedGivesZero : Prop :=
  (∀ (idx : Nat) (s : State), exec (.rdUnmapped idx) s = .next { s with out := { rdata := some 0x00#8 } }) ∧
    (∀ idx : Nat, 4 ≤ idx → readOp idx = .rdUnmapped idx) ∧
    ∀ w : OpWord, w.extractLsb' 16 2 = 1#2 → 4 ≤ (w.extractLsb' 8 8).toNat →
      decodeWord w = .rdUnmapped (w.extractLsb' 8 8).toNat

/-- R100: `WR_DATA` while `tx_cnt > 0` is rejected, with no change but the report of the dropped byte; while `tx_cnt =
0` it hands the byte to the sink within the operation (an unconnected sink discards it, the spec's decision D18) and
arms the outbound countdown. The logs are the model's (log entry 4). The arming value `D * 9 * QD` is R70's, the
spec's decisions D5 and D6. -/
def Obligations.WriteDataSendsOrDrops : Prop :=
  ∀ (s : State) (b : Byte),
    (0 < s.txCnt → exec (.wrData b) s = .next { s with diag := s.diag ++ [b], out := { diag := some b } }) ∧
    (s.txCnt = 0 → exec (.wrData b) s = .next { s with
      txCnt := s.div.toNat * 9 * s.quantum.qd
      sink := if s.sinkBound = true then s.sink ++ [b] else s.sink
      out := { sink := some b } })

/-- R101: `WR_STATUS` changes nothing and puts nothing out, every byte alike, in every state. -/
def Obligations.WriteStatusDoesNothing : Prop :=
  (∀ (s : State) (b : Byte), exec (.wrStatus b) s = .next { s with out := {} }) ∧
    ∀ b : Byte, decodeWord (0x201#10 ++ b) = .wrStatus b

/-- R102: `WR_DIVLO` replaces the low half of the divisor and nothing else, in every state, busy ones among them; an
arming that follows uses the value as it now is, mixed or not. The arming value `D * 9 * QD` is R70's, the spec's
decisions D5 and D6. -/
def Obligations.WriteDivloReplacesLowHalf : Prop :=
  (∀ (s : State) (b : Byte), exec (.wrDivlo b) s = .next { s with div := s.div.extractLsb' 8 8 ++ b, out := {} }) ∧
    (∀ b : Byte, decodeWord (0x202#10 ++ b) = .wrDivlo b) ∧
    (∀ (s : State) (b : Byte), ∃ t, runOps [.wrDivlo b, .rdData] s = .next t ∧
      t.rxCnt = (s.div.extractLsb' 8 8 ++ b).toNat * 9 * s.quantum.qd) ∧
    ∀ (s : State) (b c : Byte), s.txCnt = 0 → ∃ t, runOps [.wrDivlo b, .wrData c] s = .next t ∧
      t.txCnt = (s.div.extractLsb' 8 8 ++ b).toNat * 9 * s.quantum.qd

/-- R103: `WR_DIVHI` replaces the high half of the divisor and nothing else, in every state; an arming that follows
uses the value as it now is; the two writes in either order give the composed value. The arming value `D * 9 * QD` is
R70's, the spec's decisions D5 and D6. -/
def Obligations.WriteDivhiReplacesHighHalf : Prop :=
  (∀ (s : State) (b : Byte), exec (.wrDivhi b) s = .next { s with div := b ++ s.div.extractLsb' 0 8, out := {} }) ∧
    (∀ b : Byte, decodeWord (0x203#10 ++ b) = .wrDivhi b) ∧
    (∀ (s : State) (b : Byte), ∃ t, runOps [.wrDivhi b, .rdData] s = .next t ∧
      t.rxCnt = (b ++ s.div.extractLsb' 0 8).toNat * 9 * s.quantum.qd) ∧
    (∀ (s : State) (b c : Byte), s.txCnt = 0 → ∃ t, runOps [.wrDivhi b, .wrData c] s = .next t ∧
      t.txCnt = (b ++ s.div.extractLsb' 0 8).toNat * 9 * s.quantum.qd) ∧
    ∀ (s : State) (lo hi : Byte), runOps [.wrDivlo lo, .wrDivhi hi] s = .next { s with div := hi ++ lo, out := {} } ∧
      runOps [.wrDivhi hi, .wrDivlo lo] s = .next { s with div := hi ++ lo, out := {} }

/-- R104: a write of an index of 4 or more changes nothing and puts nothing out. -/
def Obligations.WriteUnmappedDoesNothing : Prop :=
  (∀ (idx : Nat) (b : Byte) (s : State), exec (.wrUnmapped idx b) s = .next { s with out := {} }) ∧
    (∀ (idx : Nat) (b : Byte), 4 ≤ idx → writeOp idx b = .wrUnmapped idx b) ∧
    ∀ w : OpWord, w.extractLsb' 16 2 = 2#2 → 4 ≤ (w.extractLsb' 8 8).toNat →
      decodeWord w = .wrUnmapped (w.extractLsb' 8 8).toNat (w.extractLsb' 0 8)

/-- R130: `RESET` with a byte at the source takes it into the cache; with none it draws `RX_INIT`, a fresh free value
(the spec's decision D9; log entry 6). Divisor 24, both countdowns 0; nothing sent, nothing reported. -/
def Obligations.ResetInitialisesAndPrimes : Prop :=
  ∀ s : State,
    (s.srcAvail = true → exec .reset s = .next { s with
      div := 24#16, txCnt := 0, rxCnt := 0, rxByte := s.srcPending.headD 0, srcPending := s.srcPending.tail
      out := { srcTake := true } }) ∧
    (s.srcAvail = false → exec .reset s = .next { s with
      div := 24#16, txCnt := 0, rxCnt := 0, rxByte := Config.rxInit s.draws, draws := s.draws + 1, out := {} })

/-- R21, R131 (the spec's own inference): the reset state has divisor 0x0018 and both countdowns 0, and after any
`RESET` the transmitter is idle, accepts a `WR_DATA` at once, and `RXAVAIL` is `src_avail` as the source stands after
the prime. -/
def Obligations.ResetLeavesTheBlockReady : Prop :=
  (State.reset.div = 0x0018#16 ∧ State.reset.txCnt = 0 ∧ State.reset.rxCnt = 0) ∧
    ∀ s : State, ∃ t, exec .reset s = .next t ∧ t.txBusy = false ∧ t.rxReady = t.srcAvail ∧
      ∀ b : Byte, ∃ u, exec (.wrData b) t = .next u ∧ u.out = { sink := some b }

-- ## Frames

/-- R95: what every read leaves alone. -/
def Obligations.ReadsLeaveAllButRxCnt : Prop :=
  (∀ (i : Instr) (s : State), i.isRead = true → ∃ (t : State) (b : Byte), exec i s = .next t ∧
      t.out = { rdata := some b } ∧ t.div = s.div ∧ t.txCnt = s.txCnt ∧ t.rxByte = s.rxByte ∧ samePorts s t ∧
      sameInstance s t ∧ t.draws = s.draws ∧ (i ≠ .rdData → t.rxCnt = s.rxCnt)) ∧
    ∀ (idx : Nat) (v w : Byte), busOp false idx v = busOp false idx w ∧ (busOp false idx v).isRead = true

/-- R105: what every write leaves alone. -/
def Obligations.WritesLeaveReceiveSideAlone : Prop :=
  (∀ (i : Instr) (s : State), i.isWrite = true → ∃ t, exec i s = .next t ∧ t.out.rdata = none ∧ t.out.srcTake = false ∧
      t.rxCnt = s.rxCnt ∧ t.rxByte = s.rxByte ∧ t.srcPending = s.srcPending ∧ sameInstance s t ∧ t.draws = s.draws) ∧
    ∀ (idx : Nat) (v : Byte), (busOp true idx v).isWrite = true

/-- R10 (its table): each element of the block is written only by the operations the table names. -/
def Obligations.ElementsHaveTheirWritersOnly : Prop :=
  ∀ (i : Instr) (s t : State), exec i s = .next t →
    (t.div ≠ s.div → i.opName = .wrDivlo ∨ i.opName = .wrDivhi ∨ i = .reset) ∧
    (t.txCnt ≠ s.txCnt → (i.opName = .wrData ∧ t.out.sink.isSome = true) ∨ i = .step ∨ i = .reset) ∧
    (t.rxCnt ≠ s.rxCnt → i = .rdData ∨ i = .step ∨ i = .reset) ∧
    (t.rxByte ≠ s.rxByte → (i = .step ∧ s.rxCnt ≠ 0 ∧ t.rxCnt = 0 ∧ t.out.srcTake = true) ∨ i = .reset)

/-- R30: each port is reached only by the operations named there: the source by a `STEP` at an inbound expiry and by
`RESET`, the sink by an accepted `WR_DATA`, the diagnostic port by a rejected one. -/
def Obligations.PortsAreReachedOnlySo : Prop :=
  ∀ (i : Instr) (s t : State), exec i s = .next t →
    (t.srcPending ≠ s.srcPending →
      ((i = .step ∧ 0 < s.rxCnt ∧ t.rxCnt = 0) ∨ i = .reset) ∧ s.srcPending = t.rxByte :: t.srcPending) ∧
    (t.sink ≠ s.sink → ∃ b, i = .wrData b ∧ s.txCnt = 0 ∧ t.sink = s.sink ++ [b]) ∧
    (t.diag ≠ s.diag → ∃ b, i = .wrData b ∧ 0 < s.txCnt ∧ t.diag = s.diag ++ [b])

/-- R4: no operation changes the constants of the instance, and no step changes them (which constants, log entries 5
and 7). -/
def Obligations.InstanceConstantsNeverChange : Prop :=
  (∀ (i : Instr) (s t : State), exec i s = .next t → sameInstance s t) ∧
    ∀ s t : State, step s = .next t →
      t.quantum = s.quantum ∧ t.sinkBound = s.sinkBound ∧ t.srcCanProbe = s.srcCanProbe

/-- R60 (the spec's decision D2): the output record of every operation, and the pulses on the ports, which are 0 where
no operation is presented (log entry 2). -/
def Obligations.OutputRecordIsAsR60Says : Prop :=
  (∀ (i : Instr) (s t : State), exec i s = .next t →
    (t.out.rdata.isSome = i.isRead) ∧
    (t.out.srcTake = true → i = .step ∨ i = .reset) ∧ (t.out.srcTake = true ↔ t.srcPending ≠ s.srcPending) ∧
    (∀ b, t.out.sink = some b ↔ i = .wrData b ∧ s.txBusy = false) ∧
    (∀ b, t.out.diag = some b ↔ i = .wrData b ∧ s.txBusy = true) ∧
    (t.out.sink = none ∨ t.out.diag = none)) ∧
    (∀ o : Output, o.toPorts.srcTake = o.srcTake ∧ o.toPorts.snkValid = o.sink.isSome ∧ o.toPorts.snkData = o.sink ∧
      o.toPorts.diagValid = o.diag.isSome ∧ o.toPorts.diagData = o.diag) ∧
    ∀ s : State, s.schedule = [] → ∃ t, step s = .next t ∧ t.out.toPorts.srcTake = false ∧
      t.out.toPorts.snkValid = false ∧ t.out.toPorts.diagValid = false

-- ## The timing engine

/-- R71 (the spec's decision D4): `dec` and `expired`, for every quantum of R4. -/
def Obligations.CountdownSaturatesAndExpiresOnce : Prop :=
  ∀ (q : Quantum) (c : Nat), q.wf = true →
    (q.qn < c → dec q c + q.qn = c ∧ expired q c = false) ∧ (c ≤ q.qn → dec q c = 0) ∧
    (expired q c = true ↔ 0 < c ∧ dec q c = 0) ∧ dec q 0 = 0 ∧ expired q 0 = false ∧ expired q q.qn = true

/-- R70 (the spec's decisions D5, D6), R23 (the spec's own inference): the arming value is `D * 9 * QD`, never exceeds
`65535 * 9 * QD`, is 0 for `D = 0` only, fits in `CNT_W` bits, and `CNT_W` is the smallest such width: 20 for `QD =
1`, 23 for `QD = 8`. -/
def Obligations.ArmingValueFitsCntW : Prop :=
  (∀ (q : Quantum) (d : Divisor), q.wf = true →
    arm q d = d.toNat * 9 * q.qd ∧ arm q d ≤ 65535 * 9 * q.qd ∧ (arm q d = 0 ↔ d = 0#16) ∧ arm q d < 2 ^ cntWidth q) ∧
    (∀ (q : Quantum) (w : Nat), q.wf = true → (65535 * 9 * q.qd < 2 ^ w ↔ cntWidth q ≤ w)) ∧
    ∀ qn : Nat, cntWidth ⟨qn, 1⟩ = 20 ∧ cntWidth ⟨qn, 8⟩ = 23

/-- R79 (the spec's own inference): a `STEP` with both countdowns at 0 is the identity on the state, with the empty
output record. -/
def Obligations.StepAtRestIsIdentity : Prop :=
  ∀ s : State, s.txCnt = 0 → s.rxCnt = 0 → exec .step s = .next { s with out := {} }

/-- R77 (the spec's own inference), outbound (T1): after an accepted `WR_DATA` with divisor `D` the transmitter is
busy for exactly the first `ceil(D * 9 * QD / QN)` `STEP`s, whatever else comes between them, and idle after them in a
run with no further `WR_DATA` and no `RESET`. The arming value `D * 9 * QD` is R70's, the spec's decisions D5 and D6.
-/
def Obligations.BusyForExactlyCeilSteps : Prop :=
  ∀ (s t : State) (b : Byte) (ops : List Instr), s.quantum.wf = true → s.txBusy = false →
    exec (.wrData b) s = .next t → lacks .reset ops →
    (stepCount ops < (s.div.toNat * 9 * s.quantum.qd + s.quantum.qn - 1) / s.quantum.qn →
      ∃ u, runOps ops t = .next u ∧ u.txBusy = true) ∧
    ((s.div.toNat * 9 * s.quantum.qd + s.quantum.qn - 1) / s.quantum.qn ≤ stepCount ops → lacks .wrData ops →
      ∃ u, runOps ops t = .next u ∧ u.txBusy = false)

/-- R77 (the spec's own inference), inbound: after a `RD_DATA` with divisor `D`, and with no further `RD_DATA` or
`RESET`, the refill happens in the `N`-th `STEP` for `N = ceil(D * 9 * QD / QN) >= 1`, and never for `N = 0`. The
source has no move but the block's own in such a run (the model's choice, log entry 13): runs in which bytes arrive or
`has_more()` changes meanwhile are left out. The arming value `D * 9 * QD` is R70's, the spec's decisions D5 and D6.
That an empty refill keeps the cached byte is R81's, the spec's decision D8. -/
def Obligations.RefillInExactlyTheNthStep : Prop :=
  ∀ (s t : State) (ops : List Instr), s.quantum.wf = true → exec .rdData s = .next t →
    lacks .reset ops → lacks .rdData ops →
    (stepCount ops < (s.div.toNat * 9 * s.quantum.qd + s.quantum.qn - 1) / s.quantum.qn →
      ∃ u, runOps ops t = .next u ∧ u.rxReady = false ∧ u.rxByte = s.rxByte ∧ u.srcPending = s.srcPending) ∧
    (stepCount ops + 1 = (s.div.toNat * 9 * s.quantum.qd + s.quantum.qn - 1) / s.quantum.qn →
      ∃ u v, runOps ops t = .next u ∧ exec .step u = .next v ∧ v.rxCnt = 0 ∧ v.out.srcTake = s.srcAvail ∧
        (s.srcAvail = true → s.srcPending = v.rxByte :: v.srcPending) ∧
        (s.srcAvail = false → v.rxByte = s.rxByte ∧ v.srcPending = s.srcPending)) ∧
    ((s.div.toNat * 9 * s.quantum.qd + s.quantum.qn - 1) / s.quantum.qn = 0 →
      ∃ u, runOps ops t = .next u ∧ u.rxCnt = 0 ∧ u.rxByte = s.rxByte ∧ u.srcPending = s.srcPending)

/-- R74: the `STEP` of an inbound expiry runs one refill, and leaves the countdown at 0; if it finds no byte the cache
keeps its byte (R81, the spec's decision D8). A `STEP` that leaves the countdown above 0 fetches nothing. From a
countdown at 0 nothing is fetched until a `RD_DATA` arms it anew, which needs `D > 0`. That the waiting bytes are
unchanged over a run supposes that none arrives (the model's choice, log entry 13). -/
def Obligations.ExpiryRefillsExactlyOnce : Prop :=
  (∀ s : State, 0 < s.rxCnt → s.rxCnt ≤ s.quantum.qn → ∃ t, exec .step s = .next t ∧ t.rxCnt = 0 ∧
      (s.srcAvail = true → s.srcPending = t.rxByte :: t.srcPending) ∧
      (s.srcAvail = false → t.rxByte = s.rxByte ∧ t.srcPending = s.srcPending)) ∧
    (∀ (s : State) (ops : List Instr), s.rxCnt = 0 → lacks .rdData ops → lacks .reset ops →
      ∃ t, runOps ops s = .next t ∧ t.rxCnt = 0 ∧ t.rxByte = s.rxByte ∧ t.srcPending = s.srcPending) ∧
    (∀ s : State, s.quantum.qn < s.rxCnt → ∃ t, exec .step s = .next t ∧ 0 < t.rxCnt ∧ t.out.srcTake = false ∧
      t.rxByte = s.rxByte ∧ t.srcPending = s.srcPending) ∧
    ∀ s t : State, exec .rdData s = .next t → 0 < t.rxCnt → s.div ≠ 0#16

/-- R78 (the spec's decision D4): on every operation the integer countdowns and the source's real-valued ones, which
go on falling below zero, stay `max(0, QD * r)` of each other and put the same things out; `RESET` makes them so. -/
def Obligations.IntegerAndRealCountdownsAgree : Prop :=
  (∀ (s t : State) (r : RealBlock) (i : Instr), s.quantum.wf = true → realMatches s r → exec i s = .next t →
    realMatches t (realExec s.quantum s.tryGetNextByte (Config.rxInit s.draws) i r).1 ∧
      t.out = (realExec s.quantum s.tryGetNextByte (Config.rxInit s.draws) i r).2) ∧
    ∀ (s t : State) (r : RealBlock), exec .reset s = .next t →
      realMatches t (realExec s.quantum s.tryGetNextByte (Config.rxInit s.draws) .reset r).1

/-- R22 (the spec's own inference): no operation reads one countdown to write the other. -/
def Obligations.CountdownsAreIndependent : Prop :=
  ∀ (i : Instr) (s : State) (c : Nat), ∃ t u v, exec i s = .next t ∧ exec i { s with rxCnt := c } = .next u ∧
    exec i { s with txCnt := c } = .next v ∧ u.txCnt = t.txCnt ∧ v.rxCnt = t.rxCnt

/-- R22 (the spec's own inference): every step keeps the invariant: the quantum positive, each countdown 0 or `A - k *
QN > 0`, the output record coherent. -/
def Obligations.StepKeepsTheInvariant : Prop :=
  ∀ s t : State, s.Inv → step s = .next t → t.Inv

/-- R21, R22 (the spec's own inference): the reset state meets the invariant, whatever the quantum of the instance
(that it is positive is R4; that State.reset holds one is log entry 5). -/
def Obligations.ResetMeetsTheInvariant : Prop := State.reset.Inv

/-- R22 (the spec's own inference): in a state that meets the invariant both countdowns are at most `65535 * 9 * QD`.
-/
def Obligations.InvariantBoundsTheCountdowns : Prop :=
  ∀ s : State, s.Inv → s.txCnt ≤ 65535 * 9 * s.quantum.qd ∧ s.rxCnt ≤ 65535 * 9 * s.quantum.qd

/-- R141 (the spec's own inference): `TXBUSY` falls only at a `STEP` or `RESET` and rises only at an accepted
`WR_DATA`; `RXAVAIL` is false while the inbound countdown is above 0 (T4). -/
def Obligations.BusyFlagMovesOnlySo : Prop :=
  ∀ (i : Instr) (s t : State), exec i s = .next t →
    (s.txBusy = true → t.txBusy = false → i = .step ∨ i = .reset) ∧
    (s.txBusy = false → t.txBusy = true → ∃ b, i = .wrData b ∧ t.out.sink = some b ∧ s.div ≠ 0#16) ∧
    (0 < t.rxCnt → t.rxReady = false)

/-- R142: without `STEP` and `RESET` a busy transmitter stays busy and a pending refill never comes. That the waiting
bytes are unchanged over a run supposes that none arrives (the model's choice, log entry 13). -/
def Obligations.NothingMovesWithoutSteps : Prop :=
  ∀ (s : State) (ops : List Instr), lacks .step ops → lacks .reset ops →
    ∃ t, runOps ops s = .next t ∧ t.rxByte = s.rxByte ∧ t.srcPending = s.srcPending ∧
      (s.txBusy = true → t.txCnt = s.txCnt)

-- ## Order, ports and hazards

/-- R38: the block and its output are a function of the operation, the block before it, the quantum, what the source
answers, and the draw: the logs, the schedule and the source's further bytes play no part. -/
def Obligations.BlockDependsOnItsSamplesOnly : Prop :=
  ∀ (i : Instr) (s s' t : State), sameBlock s s' → s.quantum = s'.quantum → s.tryGetNextByte = s'.tryGetNextByte →
    s.draws = s'.draws → exec i s = .next t →
    ∃ t', exec i s' = .next t' ∧ sameBlock t t' ∧ t.out = t'.out ∧ t.draws = t'.draws

/-- R40 (the spec's own inference): a change of the divisor reaches no countdown that is running: only `RD_DATA` and
an accepted `WR_DATA` read it to arm. -/
def Obligations.DivisorIsSampledAtArmingOnly : Prop :=
  ∀ (i : Instr) (s : State) (d : Divisor), i ≠ .rdData → (i.opName = .wrData → s.txBusy = true) →
    ∃ t u, exec i s = .next t ∧ exec i { s with div := d } = .next u ∧ u.txCnt = t.txCnt ∧ u.rxCnt = t.rxCnt ∧
      u.rxByte = t.rxByte ∧ samePorts t u

/-- R84, R85, T2 (the spec's decisions D18, D14; the logs are log entry 4): over any run, a connected sink receives
exactly the bytes of the writes that found the transmitter idle, in order, and the diagnostic log exactly those of the
writes that found it busy. -/
def Obligations.SinkGetsExactlyAcceptedWrites : Prop :=
  ∀ (ops : List Instr) (s : State), ∃ t, runOps ops s = .next t ∧
    t.sink = (if s.sinkBound = true then s.sink ++ dataWrites false ops s else s.sink) ∧
    t.diag = s.diag ++ dataWrites true ops s

/-- R83, R87 (the spec's own inferences): from a `RESET` whose prime found a byte, the bytes returned by the reads
that directly follow a refill are the source's bytes in order, none skipped, whatever else the run does short of
another `RESET`. The source is a list with no later arrivals (R86; the model's choice, log entry 13). -/
def Obligations.FreshReadsAreTheSourceInOrder : Prop :=
  ∀ (s t : State) (ops : List Instr), s.srcAvail = true → exec .reset s = .next t → lacks .reset ops →
    freshReads true ops t <+: s.srcPending

/-- R112, R138 (the latter the spec's own inference): once the source has no byte, the receiver is never ready again,
however the run goes on, and the cache keeps its byte until a `RESET`. Exhausted is no byte waiting (log entry 14),
and for good here: nothing arrives later (the model's choice, log entry 13). That an empty refill keeps the cached
byte is R81's, the spec's decision D8. -/
def Obligations.ExhaustedSourceIsNeverReady : Prop :=
  ∀ (s : State) (ops : List Instr), s.srcPending = [] →
    ∃ t, runOps ops s = .next t ∧ t.rxReady = false ∧ t.srcPending = [] ∧ (lacks .reset ops → t.rxByte = s.rxByte)

/-- R135 (the spec's own inference): a transmitter seen idle accepts the next `WR_DATA`, whatever steps and accesses
other than `WR_DATA` come between. -/
def Obligations.SeenIdleMeansAccepted : Prop :=
  ∀ (s : State) (ops : List Instr) (b : Byte), s.txBusy = false → lacks .wrData ops →
    ∃ t u, runOps ops s = .next t ∧ exec (.wrData b) t = .next u ∧ u.out = { sink := some b } ∧ u.diag = s.diag

/-- R136 (the spec's own inference): with divisor 0 every `WR_DATA` is accepted with no pacing, no refill ever runs,
and `RXAVAIL` stays at `src_avail`. `src_avail` itself stays as it is, for the source makes no move (the model's
choice, log entry 13). -/
def Obligations.DivisorZeroNeverPacesOrRefills : Prop :=
  ∀ (s : State) (ops : List Instr), s.div = 0#16 → s.txCnt = 0 → s.rxCnt = 0 → lacks .wrDivlo ops → lacks .wrDivhi ops →
    lacks .reset ops →
    ∃ t, runOps ops s = .next t ∧ t.txBusy = false ∧ t.rxCnt = 0 ∧ t.rxReady = s.srcAvail ∧ t.rxByte = s.rxByte ∧
      t.srcPending = s.srcPending ∧ t.diag = s.diag ∧
      (s.sinkBound = true → t.sink = s.sink ++ ops.filterMap dataByte?)

/-- R137 (the spec's own inference): a program that reads `DATA` again and again, each time before `ceil(D * 9 * QD /
QN)` steps have passed, gets the same byte for ever. That the waiting bytes are unchanged over a run supposes that
none arrives (the model's choice, log entry 13). -/
def Obligations.RereadingStarvesTheReceiver : Prop :=
  ∀ (s : State) (gaps : List Nat), s.quantum.wf = true →
    (∀ g ∈ gaps, g < (s.div.toNat * 9 * s.quantum.qd + s.quantum.qn - 1) / s.quantum.qn) →
    ∃ t, runOps (gaps.flatMap fun g => .rdData :: List.replicate g .step) s = .next t ∧ t.rxByte = s.rxByte ∧
      t.srcPending = s.srcPending

/-- R139 (the spec's own inference): a byte that reaches the source after the refill came up empty is announced at
once, while the cache still holds the old byte; the next `RD_DATA` returns the old byte, and the new one comes at the
expiry after it. The byte arrives by the model's `srcEvent` with `has_more()` true (log entry 3), and the source makes
no other move until that expiry (the model's choice, log entry 13): a probing source that withdraws `src_avail`
meanwhile is left out. That an empty refill keeps the cached byte is R81's, the spec's decision D8. -/
def Obligations.LateSourceGivesOneDuplicate : Prop :=
  ∀ (s : State) (b : Byte), s.quantum.wf = true → s.div ≠ 0#16 → 0 < s.rxCnt → s.rxCnt ≤ s.quantum.qn →
    s.srcPending = [] →
    ∃ t u v, exec .step s = .next t ∧ t.rxReady = false ∧ (t.srcEvent [b] true).rxReady = true ∧
      exec .rdData (t.srcEvent [b] true) = .next u ∧ u.out.rdata = some s.rxByte ∧
      runOps (List.replicate ((s.div.toNat * 9 * s.quantum.qd + s.quantum.qn - 1) / s.quantum.qn) .step) u = .next v ∧
      v.rxByte = b

/-- R132 (the spec's decision D17): a `RESET` does the same whatever the state before it: the block after it is fixed
by the source's answer and the draw alone; it sends and reports nothing. -/
def Obligations.ResetForgetsTheBlock : Prop :=
  ∀ s s' : State, s.tryGetNextByte = s'.tryGetNextByte → s.draws = s'.draws →
    ∃ t t', exec .reset s = .next t ∧ exec .reset s' = .next t' ∧ sameBlock t t' ∧ t.out = t'.out ∧
      t.sink = s.sink ∧ t.diag = s.diag

-- ## The boundary: bus, clock, trace

/-- R35 (the spec's own inference), R31, R32: a one-byte access to an index is the read or write operation of that
index; an access of any other width is refused. -/
def Obligations.OnlyByteAccessesExist : Prop :=
  ∀ (s : State) (idx size : Nat) (b : Byte),
    memRead idx 1 s = exec (if idx = 0 then .rdData else if idx = 1 then .rdStatus else if idx = 2 then .rdDivlo
      else if idx = 3 then .rdDivhi else .rdUnmapped idx) s ∧
    memWrite idx 1 b s = exec (if idx = 0 then .wrData b else if idx = 1 then .wrStatus b else if idx = 2 then .wrDivlo b
      else if idx = 3 then .wrDivhi b else .wrUnmapped idx b) s ∧
    (size ≠ 1 → memRead idx size s = .refused (.accessWidth size) ∧
      memWrite idx size b s = .refused (.accessWidth size))

/-- R59 (the spec's decision D13; log entry 11): one rising edge performs `RESET` and nothing else; otherwise the
access first and then `STEP`; otherwise `STEP` alone; the ports carry what the operations of the cycle put out. -/
def Obligations.ClockEdgePerformsAccessThenStep : Prop :=
  ∀ (p : InPorts) (s : State),
    (p.rst = true → clockEdge p s = exec .reset s) ∧
    (p.rst = false → p.sel = false → clockEdge p s = exec .step s) ∧
    (p.rst = false → p.sel = true → ∃ t u, exec (busOp p.we p.idx p.wdata) s = .next t ∧ exec .step t = .next u ∧
      clockEdge p s = .next { u with
        out := { rdata := t.out.rdata, srcTake := u.out.srcTake, sink := t.out.sink, diag := t.out.diag } })

/-- R58 (the spec's decision D12): `WAITTX` ends after exactly `ceil(tx_cnt / QN)` `STEP`s with the transmitter idle,
and not before. The source makes no move while the host polls (the model's choice, log entry 13), which the
transmitter does not see. -/
def Obligations.WaitTxEndsOnTime : Prop :=
  ∀ s : State, s.quantum.wf = true →
    (∃ t, waitTx ((s.txCnt + s.quantum.qn - 1) / s.quantum.qn + 1) s = .ok t ∧ t.txBusy = false ∧ t.sink = s.sink) ∧
    ∀ fuel, fuel ≤ (s.txCnt + s.quantum.qn - 1) / s.quantum.qn → waitTx fuel s = .error .outOfPatience

/-- R138(c) (the spec's own inference), R58 (D12): `WAITRX` does not end once the source is exhausted, however long
the host polls. Exhausted is no byte waiting (log entry 14), and for good here: nothing arrives while the host polls
(the model's choice, log entry 13). -/
def Obligations.WaitRxNeverEndsWhenExhausted : Prop :=
  ∀ (s : State) (fuel : Nat), s.srcPending = [] → waitRx fuel s = .error .outOfPatience

/-- R58 (the spec's decision D12): `GETDIV` gives the divisor, and `SETDIV v` makes it `v`. -/
def Obligations.GetDivAfterSetDiv : Prop :=
  ∀ (s : State) (v : Divisor) (fuel : Nat), getDivValue s = some s.div ∧
    ∃ t, runLine fuel (.setDiv v) s = .ok t ∧ t = { s with div := v, out := {} } ∧ getDivValue t = some v
end

