-- ==== Sys2Proof/Laws/Countdown.lean ====
section
/-! SUPPORT. The arithmetic of the countdowns: what `arm`, `dec` and `expired` are, in the words of linear arithmetic. -/

namespace Sys2Proof.Machine

theorem Quantum_wf_iff (q : Quantum) : q.wf = true ↔ 0 < q.qn ∧ 0 < q.qd := by simp [Quantum.wf]

/-- `dec` is truncated subtraction. -/
theorem dec_eq_sub (q : Quantum) (c : Nat) : dec q c = c - q.qn := by
  unfold dec
  split <;> omega

theorem expired_iff (q : Quantum) (c : Nat) : expired q c = true ↔ 0 < c ∧ c ≤ q.qn := by simp [expired]

@[simp] theorem expired_zero (q : Quantum) : expired q 0 = false := by simp [expired]

theorem arm_eq (q : Quantum) (d : Divisor) : arm q d = d.toNat * 9 * q.qd := rfl

/-- A countdown that was armed with the divisor's value, lowered by `QN` once more, is of the form of R22 again. -/
theorem countdownForm_dec {q : Quantum} {c : Nat} (h : countdownForm q c) : countdownForm q (dec q c) := by
  rw [dec_eq_sub]
  rcases h with rfl | ⟨d, k, hk, rfl⟩
  · exact .inl (Nat.zero_sub _)
  · by_cases hlt : (k + 1) * q.qn < arm q d
    · exact .inr ⟨d, k + 1, hlt, by rw [Nat.add_mul, Nat.one_mul]; omega⟩
    · exact .inl (by rw [Nat.add_mul, Nat.one_mul] at hlt; omega)

theorem countdownForm_zero (q : Quantum) : countdownForm q 0 := .inl rfl

theorem countdownForm_arm (q : Quantum) (d : Divisor) : countdownForm q (arm q d) := by
  by_cases h : arm q d = 0
  · exact .inl h
  · exact .inr ⟨d, 0, by omega, by simp⟩

end Sys2Proof.Machine
end

