-- ==== Sys2Proof/Laws/Encoding.lean ====
section
/-! SUPPORT. The bits of an operation word made of its three fields (spec/30_encoding.md R52). -/

namespace Sys2Proof

/-- The indices of the unmapped rows, in numbers. -/
theorem unmappedIndex_iff (idx : Nat) : unmappedIndex idx = true ↔ 4 ≤ idx ∧ idx < 256 := by
  rw [unmappedIndex, Bool.and_eq_true, decide_eq_true_iff, decide_eq_true_iff]
  exact Iff.rfl

/-- Each bit of a word is a bit of one field. -/
theorem assembleWord_getLsbD (kind : BitVec 2) (idx : BitVec 8) (data : Byte) (n : Nat) :
    (assembleWord kind idx data).getLsbD n =
      if n < 8 then data.getLsbD n else if n < 16 then idx.getLsbD (n - 8) else kind.getLsbD (n - 16) := by
  show (kind ++ idx ++ data).getLsbD n = _
  rw [BitVec.getLsbD_append]
  by_cases h : n < 8
  · simp [h]
  · rw [BitVec.getLsbD_append]
    by_cases h2 : n < 16
    · simp [h, h2, show n - 8 < 8 by omega]
    · simp [h, h2, show ¬ n - 8 < 8 by omega, show n - 8 - 8 = n - 16 by omega]

theorem wordKind_assembleWord (kind : BitVec 2) (idx : BitVec 8) (data : Byte) :
    wordKind (assembleWord kind idx data) = kind := by
  apply BitVec.eq_of_getLsbD_eq
  intro n hn
  simp only [wordKind, BitVec.getLsbD_extractLsb', assembleWord_getLsbD, show ¬ 16 + n < 8 by omega,
    show ¬ 16 + n < 16 by omega, hn, decide_true, Bool.true_and, ite_false, show 16 + n - 16 = n by omega]

theorem wordIdx_assembleWord (kind : BitVec 2) (idx : BitVec 8) (data : Byte) :
    wordIdx (assembleWord kind idx data) = idx := by
  apply BitVec.eq_of_getLsbD_eq
  intro n hn
  simp only [wordIdx, BitVec.getLsbD_extractLsb', assembleWord_getLsbD, show ¬ 8 + n < 8 by omega,
    show 8 + n < 16 by omega, hn, decide_true, Bool.true_and, ite_false, ite_true, show 8 + n - 8 = n by omega]

theorem wordData_assembleWord (kind : BitVec 2) (idx : BitVec 8) (data : Byte) :
    wordData (assembleWord kind idx data) = data := by
  apply BitVec.eq_of_getLsbD_eq
  intro n hn
  simp only [wordData, BitVec.getLsbD_extractLsb', assembleWord_getLsbD, hn,
    decide_true, Bool.true_and, ite_true, Nat.zero_add]

/-- A word is its three fields put together. -/
theorem assembleWord_fields (w : OpWord) : assembleWord (wordKind w) (wordIdx w) (wordData w) = w := by
  apply BitVec.eq_of_getLsbD_eq
  intro n hn
  rw [assembleWord_getLsbD]
  simp only [wordKind, wordIdx, wordData, BitVec.getLsbD_extractLsb']
  split
  · next h => simp [h]
  · split
    · next h h2 => simp [show n - 8 < 8 by omega, show 8 + (n - 8) = n by omega]
    · next h h2 => simp [show n - 16 < 2 by omega, show 16 + (n - 16) = n by omega]

/-- A mask over a word is the masks of its fields over the fields. -/
theorem assembleWord_and (k k' : BitVec 2) (i i' : BitVec 8) (d d' : Byte) :
    assembleWord k i d &&& assembleWord k' i' d' = assembleWord (k &&& k') (i &&& i') (d &&& d') := by
  apply BitVec.eq_of_getLsbD_eq
  intro n _
  simp only [BitVec.getLsbD_and, assembleWord_getLsbD]
  split
  · rfl
  · split <;> rfl

end Sys2Proof
end

