-- ==== Sys2Proof/Laws/Flags.lean ====
section
/-! SUPPORT. The two status flags in the words of the countdowns, and the bits of the status byte (spec/40_timing_engine.md
R75, R76; spec/42_register_reads.md R91). -/

namespace Sys2Proof.Machine

theorem txBusy_iff (s : State) : s.txBusy = true ↔ 0 < s.txCnt := by simp [State.txBusy]

theorem txBusy_eq_false_iff (s : State) : s.txBusy = false ↔ s.txCnt = 0 := by
  rw [← Bool.not_eq_true, txBusy_iff]
  omega

theorem rxReady_iff (s : State) : s.rxReady = true ↔ s.rxCnt = 0 ∧ s.srcAvail = true := by simp [State.rxReady]

/-- The receiver is not ready while the inbound countdown runs. -/
theorem rxReady_eq_false_of_pos {s : State} (h : 0 < s.rxCnt) : s.rxReady = false := by
  rw [← Bool.not_eq_true, rxReady_iff]
  omega

/-- The status byte shows the flags in bits 1 and 0 and nothing else. -/
theorem statusByte_bits (s : State) :
    (statusByte s).getLsbD 1 = s.txBusy ∧ (statusByte s).getLsbD 0 = s.rxReady ∧ (statusByte s).toNat < 4 := by
  unfold statusByte
  cases s.txBusy <;> cases s.rxReady <;> decide

end Sys2Proof.Machine
end

