-- ==== Sys2Proof/Laws/State.lean ====
section
/-! SUPPORT. One lemma per field per named update of the state, so that no proof unfolds a record update. -/

namespace Sys2Proof.Machine

variable (s : State)

-- `State.setDiv`
@[simp] theorem State.setDiv_div (d : Divisor) : (s.setDiv d).div = d := rfl
@[simp] theorem State.setDiv_txCnt (d : Divisor) : (s.setDiv d).txCnt = s.txCnt := rfl
@[simp] theorem State.setDiv_rxCnt (d : Divisor) : (s.setDiv d).rxCnt = s.rxCnt := rfl
@[simp] theorem State.setDiv_rxByte (d : Divisor) : (s.setDiv d).rxByte = s.rxByte := rfl
@[simp] theorem State.setDiv_quantum (d : Divisor) : (s.setDiv d).quantum = s.quantum := rfl
@[simp] theorem State.setDiv_srcPending (d : Divisor) : (s.setDiv d).srcPending = s.srcPending := rfl
@[simp] theorem State.setDiv_srcHasMore (d : Divisor) : (s.setDiv d).srcHasMore = s.srcHasMore := rfl
@[simp] theorem State.setDiv_srcCanProbe (d : Divisor) : (s.setDiv d).srcCanProbe = s.srcCanProbe := rfl
@[simp] theorem State.setDiv_sinkBound (d : Divisor) : (s.setDiv d).sinkBound = s.sinkBound := rfl
@[simp] theorem State.setDiv_sink (d : Divisor) : (s.setDiv d).sink = s.sink := rfl
@[simp] theorem State.setDiv_diag (d : Divisor) : (s.setDiv d).diag = s.diag := rfl
@[simp] theorem State.setDiv_out (d : Divisor) : (s.setDiv d).out = s.out := rfl
@[simp] theorem State.setDiv_schedule (d : Divisor) : (s.setDiv d).schedule = s.schedule := rfl
@[simp] theorem State.setDiv_draws (d : Divisor) : (s.setDiv d).draws = s.draws := rfl

-- `State.setTxCnt`
@[simp] theorem State.setTxCnt_div (c : Nat) : (s.setTxCnt c).div = s.div := rfl
@[simp] theorem State.setTxCnt_txCnt (c : Nat) : (s.setTxCnt c).txCnt = c := rfl
@[simp] theorem State.setTxCnt_rxCnt (c : Nat) : (s.setTxCnt c).rxCnt = s.rxCnt := rfl
@[simp] theorem State.setTxCnt_rxByte (c : Nat) : (s.setTxCnt c).rxByte = s.rxByte := rfl
@[simp] theorem State.setTxCnt_quantum (c : Nat) : (s.setTxCnt c).quantum = s.quantum := rfl
@[simp] theorem State.setTxCnt_srcPending (c : Nat) : (s.setTxCnt c).srcPending = s.srcPending := rfl
@[simp] theorem State.setTxCnt_srcHasMore (c : Nat) : (s.setTxCnt c).srcHasMore = s.srcHasMore := rfl
@[simp] theorem State.setTxCnt_srcCanProbe (c : Nat) : (s.setTxCnt c).srcCanProbe = s.srcCanProbe := rfl
@[simp] theorem State.setTxCnt_sinkBound (c : Nat) : (s.setTxCnt c).sinkBound = s.sinkBound := rfl
@[simp] theorem State.setTxCnt_sink (c : Nat) : (s.setTxCnt c).sink = s.sink := rfl
@[simp] theorem State.setTxCnt_diag (c : Nat) : (s.setTxCnt c).diag = s.diag := rfl
@[simp] theorem State.setTxCnt_out (c : Nat) : (s.setTxCnt c).out = s.out := rfl
@[simp] theorem State.setTxCnt_schedule (c : Nat) : (s.setTxCnt c).schedule = s.schedule := rfl
@[simp] theorem State.setTxCnt_draws (c : Nat) : (s.setTxCnt c).draws = s.draws := rfl

-- `State.setRxCnt`
@[simp] theorem State.setRxCnt_div (c : Nat) : (s.setRxCnt c).div = s.div := rfl
@[simp] theorem State.setRxCnt_txCnt (c : Nat) : (s.setRxCnt c).txCnt = s.txCnt := rfl
@[simp] theorem State.setRxCnt_rxCnt (c : Nat) : (s.setRxCnt c).rxCnt = c := rfl
@[simp] theorem State.setRxCnt_rxByte (c : Nat) : (s.setRxCnt c).rxByte = s.rxByte := rfl
@[simp] theorem State.setRxCnt_quantum (c : Nat) : (s.setRxCnt c).quantum = s.quantum := rfl
@[simp] theorem State.setRxCnt_srcPending (c : Nat) : (s.setRxCnt c).srcPending = s.srcPending := rfl
@[simp] theorem State.setRxCnt_srcHasMore (c : Nat) : (s.setRxCnt c).srcHasMore = s.srcHasMore := rfl
@[simp] theorem State.setRxCnt_srcCanProbe (c : Nat) : (s.setRxCnt c).srcCanProbe = s.srcCanProbe := rfl
@[simp] theorem State.setRxCnt_sinkBound (c : Nat) : (s.setRxCnt c).sinkBound = s.sinkBound := rfl
@[simp] theorem State.setRxCnt_sink (c : Nat) : (s.setRxCnt c).sink = s.sink := rfl
@[simp] theorem State.setRxCnt_diag (c : Nat) : (s.setRxCnt c).diag = s.diag := rfl
@[simp] theorem State.setRxCnt_out (c : Nat) : (s.setRxCnt c).out = s.out := rfl
@[simp] theorem State.setRxCnt_schedule (c : Nat) : (s.setRxCnt c).schedule = s.schedule := rfl
@[simp] theorem State.setRxCnt_draws (c : Nat) : (s.setRxCnt c).draws = s.draws := rfl

-- `State.setRxByte`
@[simp] theorem State.setRxByte_div (b : Byte) : (s.setRxByte b).div = s.div := rfl
@[simp] theorem State.setRxByte_txCnt (b : Byte) : (s.setRxByte b).txCnt = s.txCnt := rfl
@[simp] theorem State.setRxByte_rxCnt (b : Byte) : (s.setRxByte b).rxCnt = s.rxCnt := rfl
@[simp] theorem State.setRxByte_rxByte (b : Byte) : (s.setRxByte b).rxByte = b := rfl
@[simp] theorem State.setRxByte_quantum (b : Byte) : (s.setRxByte b).quantum = s.quantum := rfl
@[simp] theorem State.setRxByte_srcPending (b : Byte) : (s.setRxByte b).srcPending = s.srcPending := rfl
@[simp] theorem State.setRxByte_srcHasMore (b : Byte) : (s.setRxByte b).srcHasMore = s.srcHasMore := rfl
@[simp] theorem State.setRxByte_srcCanProbe (b : Byte) : (s.setRxByte b).srcCanProbe = s.srcCanProbe := rfl
@[simp] theorem State.setRxByte_sinkBound (b : Byte) : (s.setRxByte b).sinkBound = s.sinkBound := rfl
@[simp] theorem State.setRxByte_sink (b : Byte) : (s.setRxByte b).sink = s.sink := rfl
@[simp] theorem State.setRxByte_diag (b : Byte) : (s.setRxByte b).diag = s.diag := rfl
@[simp] theorem State.setRxByte_out (b : Byte) : (s.setRxByte b).out = s.out := rfl
@[simp] theorem State.setRxByte_schedule (b : Byte) : (s.setRxByte b).schedule = s.schedule := rfl
@[simp] theorem State.setRxByte_draws (b : Byte) : (s.setRxByte b).draws = s.draws := rfl

-- `State.srcTake`
@[simp] theorem State.srcTake_div : (s.srcTake).div = s.div := rfl
@[simp] theorem State.srcTake_txCnt : (s.srcTake).txCnt = s.txCnt := rfl
@[simp] theorem State.srcTake_rxCnt : (s.srcTake).rxCnt = s.rxCnt := rfl
@[simp] theorem State.srcTake_rxByte : (s.srcTake).rxByte = s.rxByte := rfl
@[simp] theorem State.srcTake_quantum : (s.srcTake).quantum = s.quantum := rfl
@[simp] theorem State.srcTake_srcPending : (s.srcTake).srcPending = s.srcPending.tail := rfl
@[simp] theorem State.srcTake_srcHasMore : (s.srcTake).srcHasMore = s.srcHasMore := rfl
@[simp] theorem State.srcTake_srcCanProbe : (s.srcTake).srcCanProbe = s.srcCanProbe := rfl
@[simp] theorem State.srcTake_sinkBound : (s.srcTake).sinkBound = s.sinkBound := rfl
@[simp] theorem State.srcTake_sink : (s.srcTake).sink = s.sink := rfl
@[simp] theorem State.srcTake_diag : (s.srcTake).diag = s.diag := rfl
@[simp] theorem State.srcTake_out : (s.srcTake).out = s.out := rfl
@[simp] theorem State.srcTake_schedule : (s.srcTake).schedule = s.schedule := rfl
@[simp] theorem State.srcTake_draws : (s.srcTake).draws = s.draws := rfl

-- `State.srcEvent`
@[simp] theorem State.srcEvent_div (bs : List Byte) (m : Bool) : (s.srcEvent bs m).div = s.div := rfl
@[simp] theorem State.srcEvent_txCnt (bs : List Byte) (m : Bool) : (s.srcEvent bs m).txCnt = s.txCnt := rfl
@[simp] theorem State.srcEvent_rxCnt (bs : List Byte) (m : Bool) : (s.srcEvent bs m).rxCnt = s.rxCnt := rfl
@[simp] theorem State.srcEvent_rxByte (bs : List Byte) (m : Bool) : (s.srcEvent bs m).rxByte = s.rxByte := rfl
@[simp] theorem State.srcEvent_quantum (bs : List Byte) (m : Bool) : (s.srcEvent bs m).quantum = s.quantum := rfl
@[simp] theorem State.srcEvent_srcPending (bs : List Byte) (m : Bool) : (s.srcEvent bs m).srcPending = s.srcPending ++ bs := rfl
@[simp] theorem State.srcEvent_srcHasMore (bs : List Byte) (m : Bool) : (s.srcEvent bs m).srcHasMore = m := rfl
@[simp] theorem State.srcEvent_srcCanProbe (bs : List Byte) (m : Bool) : (s.srcEvent bs m).srcCanProbe = s.srcCanProbe := rfl
@[simp] theorem State.srcEvent_sinkBound (bs : List Byte) (m : Bool) : (s.srcEvent bs m).sinkBound = s.sinkBound := rfl
@[simp] theorem State.srcEvent_sink (bs : List Byte) (m : Bool) : (s.srcEvent bs m).sink = s.sink := rfl
@[simp] theorem State.srcEvent_diag (bs : List Byte) (m : Bool) : (s.srcEvent bs m).diag = s.diag := rfl
@[simp] theorem State.srcEvent_out (bs : List Byte) (m : Bool) : (s.srcEvent bs m).out = s.out := rfl
@[simp] theorem State.srcEvent_schedule (bs : List Byte) (m : Bool) : (s.srcEvent bs m).schedule = s.schedule := rfl
@[simp] theorem State.srcEvent_draws (bs : List Byte) (m : Bool) : (s.srcEvent bs m).draws = s.draws := rfl

-- `State.sinkPut`
@[simp] theorem State.sinkPut_div (b : Byte) : (s.sinkPut b).div = s.div := rfl
@[simp] theorem State.sinkPut_txCnt (b : Byte) : (s.sinkPut b).txCnt = s.txCnt := rfl
@[simp] theorem State.sinkPut_rxCnt (b : Byte) : (s.sinkPut b).rxCnt = s.rxCnt := rfl
@[simp] theorem State.sinkPut_rxByte (b : Byte) : (s.sinkPut b).rxByte = s.rxByte := rfl
@[simp] theorem State.sinkPut_quantum (b : Byte) : (s.sinkPut b).quantum = s.quantum := rfl
@[simp] theorem State.sinkPut_srcPending (b : Byte) : (s.sinkPut b).srcPending = s.srcPending := rfl
@[simp] theorem State.sinkPut_srcHasMore (b : Byte) : (s.sinkPut b).srcHasMore = s.srcHasMore := rfl
@[simp] theorem State.sinkPut_srcCanProbe (b : Byte) : (s.sinkPut b).srcCanProbe = s.srcCanProbe := rfl
@[simp] theorem State.sinkPut_sinkBound (b : Byte) : (s.sinkPut b).sinkBound = s.sinkBound := rfl
@[simp] theorem State.sinkPut_sink (b : Byte) : (s.sinkPut b).sink = if s.sinkBound then s.sink ++ [b] else s.sink := rfl
@[simp] theorem State.sinkPut_diag (b : Byte) : (s.sinkPut b).diag = s.diag := rfl
@[simp] theorem State.sinkPut_out (b : Byte) : (s.sinkPut b).out = s.out := rfl
@[simp] theorem State.sinkPut_schedule (b : Byte) : (s.sinkPut b).schedule = s.schedule := rfl
@[simp] theorem State.sinkPut_draws (b : Byte) : (s.sinkPut b).draws = s.draws := rfl

-- `State.diagPut`
@[simp] theorem State.diagPut_div (b : Byte) : (s.diagPut b).div = s.div := rfl
@[simp] theorem State.diagPut_txCnt (b : Byte) : (s.diagPut b).txCnt = s.txCnt := rfl
@[simp] theorem State.diagPut_rxCnt (b : Byte) : (s.diagPut b).rxCnt = s.rxCnt := rfl
@[simp] theorem State.diagPut_rxByte (b : Byte) : (s.diagPut b).rxByte = s.rxByte := rfl
@[simp] theorem State.diagPut_quantum (b : Byte) : (s.diagPut b).quantum = s.quantum := rfl
@[simp] theorem State.diagPut_srcPending (b : Byte) : (s.diagPut b).srcPending = s.srcPending := rfl
@[simp] theorem State.diagPut_srcHasMore (b : Byte) : (s.diagPut b).srcHasMore = s.srcHasMore := rfl
@[simp] theorem State.diagPut_srcCanProbe (b : Byte) : (s.diagPut b).srcCanProbe = s.srcCanProbe := rfl
@[simp] theorem State.diagPut_sinkBound (b : Byte) : (s.diagPut b).sinkBound = s.sinkBound := rfl
@[simp] theorem State.diagPut_sink (b : Byte) : (s.diagPut b).sink = s.sink := rfl
@[simp] theorem State.diagPut_diag (b : Byte) : (s.diagPut b).diag = s.diag ++ [b] := rfl
@[simp] theorem State.diagPut_out (b : Byte) : (s.diagPut b).out = s.out := rfl
@[simp] theorem State.diagPut_schedule (b : Byte) : (s.diagPut b).schedule = s.schedule := rfl
@[simp] theorem State.diagPut_draws (b : Byte) : (s.diagPut b).draws = s.draws := rfl

-- `State.emit`
@[simp] theorem State.emit_div (o : Output) : (s.emit o).div = s.div := rfl
@[simp] theorem State.emit_txCnt (o : Output) : (s.emit o).txCnt = s.txCnt := rfl
@[simp] theorem State.emit_rxCnt (o : Output) : (s.emit o).rxCnt = s.rxCnt := rfl
@[simp] theorem State.emit_rxByte (o : Output) : (s.emit o).rxByte = s.rxByte := rfl
@[simp] theorem State.emit_quantum (o : Output) : (s.emit o).quantum = s.quantum := rfl
@[simp] theorem State.emit_srcPending (o : Output) : (s.emit o).srcPending = s.srcPending := rfl
@[simp] theorem State.emit_srcHasMore (o : Output) : (s.emit o).srcHasMore = s.srcHasMore := rfl
@[simp] theorem State.emit_srcCanProbe (o : Output) : (s.emit o).srcCanProbe = s.srcCanProbe := rfl
@[simp] theorem State.emit_sinkBound (o : Output) : (s.emit o).sinkBound = s.sinkBound := rfl
@[simp] theorem State.emit_sink (o : Output) : (s.emit o).sink = s.sink := rfl
@[simp] theorem State.emit_diag (o : Output) : (s.emit o).diag = s.diag := rfl
@[simp] theorem State.emit_out (o : Output) : (s.emit o).out = o := rfl
@[simp] theorem State.emit_schedule (o : Output) : (s.emit o).schedule = s.schedule := rfl
@[simp] theorem State.emit_draws (o : Output) : (s.emit o).draws = s.draws := rfl

-- `State.setSchedule`
@[simp] theorem State.setSchedule_div (ps : List Presented) : (s.setSchedule ps).div = s.div := rfl
@[simp] theorem State.setSchedule_txCnt (ps : List Presented) : (s.setSchedule ps).txCnt = s.txCnt := rfl
@[simp] theorem State.setSchedule_rxCnt (ps : List Presented) : (s.setSchedule ps).rxCnt = s.rxCnt := rfl
@[simp] theorem State.setSchedule_rxByte (ps : List Presented) : (s.setSchedule ps).rxByte = s.rxByte := rfl
@[simp] theorem State.setSchedule_quantum (ps : List Presented) : (s.setSchedule ps).quantum = s.quantum := rfl
@[simp] theorem State.setSchedule_srcPending (ps : List Presented) : (s.setSchedule ps).srcPending = s.srcPending := rfl
@[simp] theorem State.setSchedule_srcHasMore (ps : List Presented) : (s.setSchedule ps).srcHasMore = s.srcHasMore := rfl
@[simp] theorem State.setSchedule_srcCanProbe (ps : List Presented) : (s.setSchedule ps).srcCanProbe = s.srcCanProbe := rfl
@[simp] theorem State.setSchedule_sinkBound (ps : List Presented) : (s.setSchedule ps).sinkBound = s.sinkBound := rfl
@[simp] theorem State.setSchedule_sink (ps : List Presented) : (s.setSchedule ps).sink = s.sink := rfl
@[simp] theorem State.setSchedule_diag (ps : List Presented) : (s.setSchedule ps).diag = s.diag := rfl
@[simp] theorem State.setSchedule_out (ps : List Presented) : (s.setSchedule ps).out = s.out := rfl
@[simp] theorem State.setSchedule_schedule (ps : List Presented) : (s.setSchedule ps).schedule = ps := rfl
@[simp] theorem State.setSchedule_draws (ps : List Presented) : (s.setSchedule ps).draws = s.draws := rfl

-- `State.drawRxInit`
@[simp] theorem State.drawRxInit_div : (s.drawRxInit).div = s.div := rfl
@[simp] theorem State.drawRxInit_txCnt : (s.drawRxInit).txCnt = s.txCnt := rfl
@[simp] theorem State.drawRxInit_rxCnt : (s.drawRxInit).rxCnt = s.rxCnt := rfl
@[simp] theorem State.drawRxInit_rxByte : (s.drawRxInit).rxByte = Config.rxInit s.draws := rfl
@[simp] theorem State.drawRxInit_quantum : (s.drawRxInit).quantum = s.quantum := rfl
@[simp] theorem State.drawRxInit_srcPending : (s.drawRxInit).srcPending = s.srcPending := rfl
@[simp] theorem State.drawRxInit_srcHasMore : (s.drawRxInit).srcHasMore = s.srcHasMore := rfl
@[simp] theorem State.drawRxInit_srcCanProbe : (s.drawRxInit).srcCanProbe = s.srcCanProbe := rfl
@[simp] theorem State.drawRxInit_sinkBound : (s.drawRxInit).sinkBound = s.sinkBound := rfl
@[simp] theorem State.drawRxInit_sink : (s.drawRxInit).sink = s.sink := rfl
@[simp] theorem State.drawRxInit_diag : (s.drawRxInit).diag = s.diag := rfl
@[simp] theorem State.drawRxInit_out : (s.drawRxInit).out = s.out := rfl
@[simp] theorem State.drawRxInit_schedule : (s.drawRxInit).schedule = s.schedule := rfl
@[simp] theorem State.drawRxInit_draws : (s.drawRxInit).draws = s.draws + 1 := rfl

end Sys2Proof.Machine
end

