-- ==== Sys2Proof/Laws/Ports.lean ====
section
/-! SUPPORT. The source port and the byte cache: when the source answers, and everything a `Refill` or the prime of
`RESET` can do (spec/41_byte_cache.md R80, R81). -/

namespace Sys2Proof.Machine

/-- The source yields a byte: it is the next one waiting, and `src_avail` is 1. -/
theorem tryGetNextByte_eq_some {s : State} {b : Byte} (h : s.tryGetNextByte = some b) :
    s.srcAvail = true ∧ s.srcPending = b :: s.srcPending.tail := by
  unfold State.tryGetNextByte at h
  split at h
  · next hr =>
    cases hp : s.srcPending with
    | nil => simp [hp] at h
    | cons x xs => simp [State.srcAvail, State.isExhausted, hp, hr] at h ⊢; exact h
  · cases h

/-- The source yields none: `src_avail` is 0. -/
theorem tryGetNextByte_eq_none {s : State} (h : s.tryGetNextByte = none) : s.srcAvail = false := by
  unfold State.tryGetNextByte at h
  split at h
  · simp [State.srcAvail, State.isExhausted, List.head?_eq_none_iff.mp h]
  · next hr => simp [State.srcAvail, hr]

theorem srcAvail_eq_isSome (s : State) : s.srcAvail = s.tryGetNextByte.isSome := by
  cases h : s.tryGetNextByte with
  | none => simp [tryGetNextByte_eq_none h]
  | some b => simp [(tryGetNextByte_eq_some h).1]

/-- All that a `Refill` can do: it takes the next byte into the cache, or it changes nothing (R81). -/
theorem refill_cases (s : State) :
    (∃ b, s.srcAvail = true ∧ s.srcPending = b :: s.srcPending.tail ∧ s.refill = (s.setRxByte b).srcTake) ∨
      (s.srcAvail = false ∧ s.refill = s) := by
  cases h : s.tryGetNextByte with
  | none => exact .inr ⟨tryGetNextByte_eq_none h, by simp [State.refill, h]⟩
  | some b => exact .inl ⟨b, (tryGetNextByte_eq_some h).1, (tryGetNextByte_eq_some h).2, by simp [State.refill, h]⟩

/-- All that the prime can do: it takes the next byte into the cache, or it draws `RX_INIT` (R130). -/
theorem prime_cases (s : State) :
    (∃ b, s.srcAvail = true ∧ s.srcPending = b :: s.srcPending.tail ∧ s.prime = (s.setRxByte b).srcTake) ∨
      (s.srcAvail = false ∧ s.prime = s.drawRxInit) := by
  cases h : s.tryGetNextByte with
  | none => exact .inr ⟨tryGetNextByte_eq_none h, by simp [State.prime, h]⟩
  | some b => exact .inl ⟨b, (tryGetNextByte_eq_some h).1, (tryGetNextByte_eq_some h).2, by simp [State.prime, h]⟩

/-- The source's answer depends on three fields of the state. -/
theorem tryGetNextByte_congr {s t : State} (hp : s.srcPending = t.srcPending) (hm : s.srcHasMore = t.srcHasMore)
    (hc : s.srcCanProbe = t.srcCanProbe) : s.tryGetNextByte = t.tryGetNextByte := by
  simp [State.tryGetNextByte, State.readable, hp, hm, hc]

theorem srcAvail_congr {s t : State} (hp : s.srcPending = t.srcPending) (hm : s.srcHasMore = t.srcHasMore)
    (hc : s.srcCanProbe = t.srcCanProbe) : s.srcAvail = t.srcAvail := by
  simp [State.srcAvail, State.isExhausted, State.readable, hp, hm, hc]

/-- A `Refill` as one update of the state. -/
theorem refill_eq (s : State) :
    s.refill = if s.srcAvail then { s with rxByte := s.srcPending.headD s.rxByte, srcPending := s.srcPending.tail }
      else s := by
  rcases refill_cases s with ⟨b, h, hp, he⟩ | ⟨h, he⟩
  · rw [he, if_pos h, hp]
    rfl
  · rw [he, h]
    rfl

/-- The prime as one update of the state. -/
theorem prime_eq (s : State) :
    s.prime = if s.srcAvail then { s with rxByte := s.srcPending.headD s.rxByte, srcPending := s.srcPending.tail }
      else s.drawRxInit := by
  rcases prime_cases s with ⟨b, h, hp, he⟩ | ⟨h, he⟩
  · rw [he, if_pos h, hp]
    rfl
  · rw [he, h]
    rfl

/-- While `src_avail` is 1 a byte waits. -/
theorem srcPending_of_srcAvail {s : State} (h : s.srcAvail = true) : ∃ b bs, s.srcPending = b :: bs := by
  cases hp : s.srcPending with
  | nil => simp [State.srcAvail, State.isExhausted, hp] at h
  | cons b bs => exact ⟨b, bs, rfl⟩

end Sys2Proof.Machine
end

