-- ==== Sys2Proof/Laws/Exec.lean ====
section
/-! SUPPORT. Everything an operation can do, said once for each operation as the one state it answers with, and the
equations by which runs and steps go on. -/

namespace Sys2Proof.Machine

theorem exec_step_eq (s : State) : exec .step s = .next
    ((if expired s.quantum s.rxCnt then s.lowerCountdowns.refill else s.lowerCountdowns).emit
      { srcTake := expired s.quantum s.rxCnt && s.srcAvail }) := rfl

theorem exec_rdData_eq (s : State) : exec .rdData s = .next (s.armRx.emit { rdata := some s.rxByte }) := rfl

theorem exec_rdStatus_eq (s : State) : exec .rdStatus s = .next (s.emit { rdata := some (statusByte s) }) := rfl

theorem exec_rdDivlo_eq (s : State) : exec .rdDivlo s = .next (s.emit { rdata := some (divLo s.div) }) := rfl

theorem exec_rdDivhi_eq (s : State) : exec .rdDivhi s = .next (s.emit { rdata := some (divHi s.div) }) := rfl

theorem exec_rdUnmapped_eq (idx : Nat) (s : State) :
    exec (.rdUnmapped idx) s = .next (s.emit { rdata := some 0x00#8 }) := rfl

theorem exec_wrData_busy {s : State} (b : Byte) (h : s.txBusy = true) :
    exec (.wrData b) s = .next ((s.diagPut b).emit { diag := some b }) := by simp [exec, execWrData, h]

theorem exec_wrData_idle {s : State} (b : Byte) (h : s.txBusy = false) :
    exec (.wrData b) s = .next (((s.sinkPut b).armTx).emit { sink := some b }) := by simp [exec, execWrData, h]

theorem exec_wrStatus_eq (b : Byte) (s : State) : exec (.wrStatus b) s = .next (s.emit {}) := rfl

theorem exec_wrDivlo_eq (b : Byte) (s : State) :
    exec (.wrDivlo b) s = .next ((s.setDiv (replaceLo s.div b)).emit {}) := rfl

theorem exec_wrDivhi_eq (b : Byte) (s : State) :
    exec (.wrDivhi b) s = .next ((s.setDiv (replaceHi s.div b)).emit {}) := rfl

theorem exec_wrUnmapped_eq (idx : Nat) (b : Byte) (s : State) : exec (.wrUnmapped idx b) s = .next (s.emit {}) := rfl

theorem exec_reset_eq (s : State) : exec .reset s = .next
    ((((s.setDiv divReset).setTxCnt 0).setRxCnt 0).prime.emit { srcTake := s.srcAvail }) := rfl

@[simp] theorem runOps_nil (s : State) : runOps [] s = .next s := rfl

/-- A run goes on from the state its first operation answers with. -/
theorem runOps_cons {i : Instr} {s t : State} (h : exec i s = .next t) (ops : List Instr) :
    runOps (i :: ops) s = runOps ops t := by simp [runOps, h]

/-- A run is cut where one likes. -/
theorem runOps_append {ops : List Instr} {s t : State} (h : runOps ops s = .next t) (more : List Instr) :
    runOps (ops ++ more) s = runOps more t := by
  induction ops generalizing s with
  | nil => cases h; rfl
  | cons i ops ih =>
    cases hi : exec i s with
    | next u => rw [List.cons_append, runOps_cons hi]; rw [runOps_cons hi] at h; exact ih h
    | fault r => nomatch r
    | refused r => simp [runOps, hi] at h

@[simp] theorem stepCount_nil : stepCount [] = 0 := rfl

theorem stepCount_cons (i : Instr) (ops : List Instr) :
    stepCount (i :: ops) = stepCount ops + if i = .step then 1 else 0 := by
  by_cases h : i = .step <;> simp [stepCount, h]

theorem step_of_schedule_nil {s : State} (h : s.schedule = []) : step s = .next s.idle := by simp [step, h]

theorem step_of_schedule_cons {s : State} {p : Presented} {rest : List Presented} (h : s.schedule = p :: rest) :
    step s = exec (decodeWord p.word) (s.present p rest) := by simp [step, h]

end Sys2Proof.Machine
end

