-- ==== Sys2Proof/Laws/PerInstr.lean ====
section
/-! SUPPORT. A law of every operation, one lemma per constructor: the canonical word of a well-formed operation holds the
fixed bits of the operation's row in the opcode table (spec/30_encoding.md R54). -/

namespace Sys2Proof.Laws.RowBits

/-- The operation's row hits the operation's canonical word. -/
def Statement (i : Instr) : Prop :=
  i.wellFormed = true → ∃ r ∈ opcodeRows, r.name = i.opName ∧ r.hits (encode i) = true

/-- A write's word has its row's fixed bits, whatever the byte. -/
theorem write_hits (idx v : Byte) (n : OpName) :
    OpRow.hits ⟨n, assembleWord 2#2 idx 0#8, assembleWord 3#2 0xFF#8 0#8⟩ (assembleWord 2#2 idx v) = true := by
  have h : idx &&& 0xFF#8 = idx := BitVec.and_allOnes
  simp [OpRow.hits, assembleWord_and, h]

/-- An unmapped operation's word has its row's two fixed bits, whatever the index and the byte. -/
theorem kind_hits (kind : BitVec 2) (idx v : Byte) (n : OpName) :
    OpRow.hits ⟨n, assembleWord kind 0#8 0#8, assembleWord 3#2 0#8 0#8⟩ (assembleWord kind idx v) = true := by
  have h : kind &&& 3#2 = kind := BitVec.and_allOnes
  simp [OpRow.hits, assembleWord_and, h]

theorem step : Statement .step := fun _ => by decide
theorem rdData : Statement .rdData := fun _ => by decide
theorem rdStatus : Statement .rdStatus := fun _ => by decide
theorem rdDivlo : Statement .rdDivlo := fun _ => by decide
theorem rdDivhi : Statement .rdDivhi := fun _ => by decide
theorem reset : Statement .reset := fun _ => by decide

theorem rdUnmapped (idx : Nat) : Statement (.rdUnmapped idx) := fun _ =>
  ⟨⟨.rdUnmapped, 0x10000#18, 0x30000#18⟩, by decide, rfl, kind_hits 1#2 _ _ _⟩

theorem wrData (v : Byte) : Statement (.wrData v) := fun _ =>
  ⟨⟨.wrData, 0x20000#18, 0x3FF00#18⟩, by decide, rfl, write_hits 0#8 v _⟩

theorem wrStatus (v : Byte) : Statement (.wrStatus v) := fun _ =>
  ⟨⟨.wrStatus, 0x20100#18, 0x3FF00#18⟩, by decide, rfl, write_hits 1#8 v _⟩

theorem wrDivlo (v : Byte) : Statement (.wrDivlo v) := fun _ =>
  ⟨⟨.wrDivlo, 0x20200#18, 0x3FF00#18⟩, by decide, rfl, write_hits 2#8 v _⟩

theorem wrDivhi (v : Byte) : Statement (.wrDivhi v) := fun _ =>
  ⟨⟨.wrDivhi, 0x20300#18, 0x3FF00#18⟩, by decide, rfl, write_hits 3#8 v _⟩

theorem wrUnmapped (idx : Nat) (v : Byte) : Statement (.wrUnmapped idx v) := fun _ =>
  ⟨⟨.wrUnmapped, 0x20000#18, 0x30000#18⟩, by decide, rfl, kind_hits 2#2 _ _ _⟩

end Sys2Proof.Laws.RowBits
end

