-- ==== Sys2Proof/Machine/TraceText.lean ====
section
/-! DEFINITION. The text of a trace (spec/30_encoding.md R57, R58): one operation a line, `;` opening a comment, numbers
decimal or `0x` hexadecimal. What the spec does not say of the text (white space, empty lines) is log entry 12. -/

namespace Sys2Proof.Machine

/-- The value of a digit: a decimal digit, or in hexadecimal a letter of either case. -/
def digitValue (c : Char) : Option Nat :=
  let n := c.toNat
  if 48 ≤ n ∧ n ≤ 57 then some (n - 48)
  else if 97 ≤ n ∧ n ≤ 102 then some (n - 87)
  else if 65 ≤ n ∧ n ≤ 70 then some (n - 55)
  else none

/-- A run of digits read in a base, most significant first. -/
def readDigits (base : Nat) : Nat → List Char → Option Nat
  | acc, [] => some acc
  | acc, c :: cs =>
    match digitValue c with
    | some d => if d < base then readDigits base (acc * base + d) cs else none
    | none => none

/-- A number: decimal, or `0x` and hexadecimal (R57). -/
def readNumber : List Char → Option Nat
  | '0' :: 'x' :: c :: cs => readDigits 16 0 (c :: cs)
  | c :: cs => readDigits 10 0 (c :: cs)
  | [] => none

/-- A number below a limit. -/
def readBelow (limit : Nat) (cs : List Char) : Option Nat :=
  match readNumber cs with
  | some n => if n < limit then some n else none
  | none => none

/-- A byte operand. -/
def readByte (cs : List Char) : Option Byte := (readBelow 256 cs).map (BitVec.ofNat 8)

/-- A word of a line put before the words already read, unless it is empty. -/
def pushWord (acc : List Char) (ws : List (List Char)) : List (List Char) :=
  if acc.isEmpty then ws else acc :: ws

/-- The words of a line: parted by white space, a comma a word of its own, `;` and what follows dropped (R57). -/
def lineWords : List Char → List Char → List (List Char)
  | acc, [] => pushWord acc []
  | acc, c :: cs =>
    if c = ';' then pushWord acc []
    else if c = ' ' ∨ c = '\t' ∨ c = '\r' then pushWord acc (lineWords [] cs)
    else if c = ',' then pushWord acc ([','] :: lineWords [] cs)
    else lineWords (acc ++ [c]) cs

/-- The assertion `=> v` after a read, or nothing (R57); `none` where the words are neither. -/
def readExpect : List (List Char) → Option (Option Byte)
  | [] => some none
  | [['=', '>'], v] => (readByte v).map some
  | _ => none

/-- The line a list of words spells (R57, R58). -/
def parseWords : List (List Char) → Option TraceLine
  | [['S', 'T', 'E', 'P']] => some (.step 1)
  | [['S', 'T', 'E', 'P'], n] => (readNumber n).map .step
  | ['R', 'D'] :: i :: more =>
    match readBelow wordIndices i, readExpect more with
    | some idx, some e => some (.rd idx e)
    | _, _ => none
  | [['W', 'R'], i, [','], v] =>
    match readBelow wordIndices i, readByte v with
    | some idx, some b => some (.wr idx b)
    | _, _ => none
  | [['R', 'E', 'S', 'E', 'T']] => some .reset
  | ['R', 'X'] :: more => (readExpect more).map (.rd 0)
  | [['T', 'X'], v] => (readByte v).map (.wr 0)
  | ['S', 'T', 'A', 'T', 'U', 'S'] :: more => (readExpect more).map (.rd 1)
  | [['G', 'E', 'T', 'D', 'I', 'V']] => some .getDiv
  | [['S', 'E', 'T', 'D', 'I', 'V'], v] => (readBelow 65536 v).map fun n => .setDiv (BitVec.ofNat 16 n)
  | [['W', 'A', 'I', 'T', 'T', 'X']] => some .waitTx
  | [['W', 'A', 'I', 'T', 'R', 'X']] => some .waitRx
  | _ => none

/-- The lines of a text. -/
def textLines : List Char → List Char → List (List Char)
  | acc, [] => [acc]
  | acc, c :: cs => if c = '\n' then acc :: textLines [] cs else textLines (acc ++ [c]) cs

/-- The lines of a trace that spell an operation, in order; `none` where some line spells none. A line of no words is
passed over. -/
def parseLines : List (List Char) → Option (List TraceLine)
  | [] => some []
  | line :: rest =>
    match lineWords [] line with
    | [] => parseLines rest
    | ws =>
      match parseWords ws, parseLines rest with
      | some l, some ls => some (l :: ls)
      | _, _ => none

/-- The text of a trace. -/
def parseTrace (text : List Char) : Option (List TraceLine) := parseLines (textLines [] text)

end Sys2Proof.Machine
end

