-- ==== Sys2Proof/Tests/Slice0.lean ====
section
/-! SUPPORT. The model's own tests: the words of spec/30_encoding.md R54 and R57, the vectors of spec/95_test_vectors.md
(sections 2.1 to 2.5, reference quantum 25/8), and for every statement with hypotheses a state that meets them. -/

namespace Sys2Proof.Tests

open Sys2Proof Sys2Proof.Machine

/-- A small state: the list source of R86, the reference quantum of 95_test_vectors.md, nothing sent. -/
def st (div : Divisor) (tx rx : Nat) (b : Byte) (src : List Byte) : State where
  div := div
  txCnt := tx
  rxCnt := rx
  rxByte := b
  quantum := ⟨25, 8⟩
  srcPending := src
  srcHasMore := true
  srcCanProbe := false
  sinkBound := true
  sink := []
  diag := []
  out := {}
  schedule := []
  draws := 0

/-- What a test looks at: the block's four elements and the source, as 95_test_vectors.md writes a state. -/
def view (s : State) : Divisor × Nat × Nat × Byte × List Byte := (s.div, s.txCnt, s.rxCnt, s.rxByte, s.srcPending)

/-- The state after an operation. -/
def after (i : Instr) (s : State) : Option State := nextState? (exec i s)

/-- What the operation puts out. -/
def outOf (i : Instr) (s : State) : Option Output := (after i s).map (·.out)

/-- The byte a read returns. -/
def rdataOf (i : Instr) (s : State) : Option Byte := (after i s).bind fun t => t.out.rdata

-- ## Well-formedness: an ill-formed term for each check (R54)

theorem test_wf_refuses_mapped_read : (Instr.rdUnmapped 3).wellFormed = false := by decide
theorem test_wf_refuses_wide_read : (Instr.rdUnmapped 256).wellFormed = false := by decide
theorem test_wf_refuses_mapped_write : (Instr.wrUnmapped 0 0x41#8).wellFormed = false := by decide
theorem test_wf_refuses_wide_write : (Instr.wrUnmapped 256 0x41#8).wellFormed = false := by decide
theorem test_wf_takes_limits : (Instr.rdUnmapped 4).wellFormed = true ∧ (Instr.wrUnmapped 255 0#8).wellFormed = true := by
  decide

-- ## Decoding: one word of each row, bits written out as kind, idx, data (R52, R54)

theorem test_decode_step : decodeWord 0b00_00000000_00000000#18 = .step := by decide
theorem test_decode_step_ignores : decodeWord 0b00_10100101_11111111#18 = .step := by decide
theorem test_decode_rd_data : decodeWord 0b01_00000000_00000000#18 = .rdData := by decide
theorem test_decode_rd_data_ignores : decodeWord 0b01_00000000_11111111#18 = .rdData := by decide
theorem test_decode_rd_status : decodeWord 0b01_00000001_00000000#18 = .rdStatus := by decide
theorem test_decode_rd_divlo : decodeWord 0b01_00000010_00000000#18 = .rdDivlo := by decide
theorem test_decode_rd_divhi : decodeWord 0b01_00000011_00000000#18 = .rdDivhi := by decide
theorem test_decode_rd_unmapped_4 : decodeWord 0b01_00000100_00000000#18 = .rdUnmapped 4 := by decide
theorem test_decode_rd_unmapped_no_mirror : decodeWord 0b01_10000001_00000000#18 = .rdUnmapped 129 := by decide
theorem test_decode_wr_data : decodeWord 0b10_00000000_01010101#18 = .wrData 0x55#8 := by decide
theorem test_decode_wr_status : decodeWord 0b10_00000001_11111111#18 = .wrStatus 0xFF#8 := by decide
theorem test_decode_wr_divlo : decodeWord 0b10_00000010_00110100#18 = .wrDivlo 0x34#8 := by decide
theorem test_decode_wr_divhi : decodeWord 0b10_00000011_00010010#18 = .wrDivhi 0x12#8 := by decide
theorem test_decode_wr_unmapped : decodeWord 0b10_11111111_00000001#18 = .wrUnmapped 255 0x01#8 := by decide
theorem test_decode_reset : decodeWord 0b11_00000000_00000000#18 = .reset := by decide
theorem test_decode_reset_ignores : decodeWord 0b11_11111111_11111111#18 = .reset := by decide
theorem test_decode_bytes : decode [0x55#8, 0x00#8, 0x02#8, 0x99#8] = .ok (.wrData 0x55#8, [0x99#8]) := by rfl
theorem test_decode_refuses_bit_18 : decode [0x00#8, 0x00#8, 0x04#8] = .error .notAnOperationWord := by rfl
theorem test_decode_refuses_two_bytes : decode [0x00#8, 0x00#8] = .error .endOfBytes := by rfl
theorem test_table_word_18 : decodeTableWord 18 0x202FF = some (.wrDivlo 0xFF#8) := by decide
theorem test_table_word_24 : decodeTableWord 24 0x10400 = some (.rdUnmapped 4) := by decide
theorem test_table_word_none : decodeTableWord 24 0x40000 = none := by decide
theorem test_encode_write : encode (.wrUnmapped 4 0xFF#8) = 0x204FF#18 := by decide
theorem test_row_wins : (winningRow 0x10100#18 opcodeRows).map (·.name) = some .rdStatus := by decide

-- ## 95_test_vectors.md 2.1, 2.2: arm, dec, expired, and the busy durations

theorem test_arm : arm ⟨25, 8⟩ 24#16 = 1728 ∧ arm ⟨25, 8⟩ 0x1234#16 = 335520 ∧ arm ⟨25, 8⟩ 65535#16 = 4718520 ∧
    arm ⟨1, 1⟩ 65535#16 = 589815 ∧ arm ⟨25, 8⟩ 0#16 = 0 := by decide
theorem test_dec : dec ⟨25, 8⟩ 24 = 0 ∧ dec ⟨25, 8⟩ 25 = 0 ∧ dec ⟨25, 8⟩ 26 = 1 ∧ dec ⟨25, 8⟩ 1728 = 1703 := by decide
theorem test_expired : expired ⟨25, 8⟩ 0 = false ∧ expired ⟨25, 8⟩ 1 = true ∧ expired ⟨25, 8⟩ 25 = true ∧
    expired ⟨25, 8⟩ 26 = false := by decide
theorem test_busy_steps : stepsToExpiry ⟨25, 8⟩ (arm ⟨25, 8⟩ 24#16) = 70 ∧ stepsToExpiry ⟨3, 1⟩ (arm ⟨3, 1⟩ 24#16) = 72 ∧
    stepsToExpiry ⟨1, 3⟩ (arm ⟨1, 3⟩ 256#16) = 6912 ∧ stepsToExpiry ⟨25, 8⟩ (arm ⟨25, 8⟩ 65535#16) = 188741 := by decide

-- ## 2.2: STEP

theorem test_step_refills : (after .step (st 24#16 3 3 0x41#8 [0x42#8, 0x43#8])).map view =
    some (24#16, 0, 0, 0x42#8, [0x43#8]) := by decide
theorem test_step_keeps_byte_when_none : (after .step (st 24#16 0 3 0x41#8 [])).map view =
    some (24#16, 0, 0, 0x41#8, []) ∧ outOf .step (st 24#16 0 3 0x41#8 []) = some {} := by decide

-- ## 2.3: reads

theorem test_rd_data_rearms : (after .rdData (st 0x0018#16 0 1703 0x41#8 [0x42#8])).map view =
    some (0x0018#16, 0, 1728, 0x41#8, [0x42#8]) ∧
    outOf .rdData (st 0x0018#16 0 1703 0x41#8 [0x42#8]) = some { rdata := some 0x41#8 } := by decide
theorem test_rd_data_div_zero : (after .rdData (st 0#16 0 0 0xAA#8 [0xBB#8])).map (fun t => t.rxCnt) = some 0 := by decide
theorem test_rd_status_both : rdataOf .rdStatus (st 0x0018#16 1728 0 0x41#8 [0x42#8]) = some 0x03#8 := by decide
theorem test_rd_status_counting : rdataOf .rdStatus (st 0x0018#16 1728 1728 0x41#8 [0x42#8]) = some 0x02#8 := by decide
theorem test_rd_divlo : rdataOf .rdDivlo (st 0x1234#16 0 0 0#8 []) = some 0x34#8 := by decide
theorem test_rd_divhi : rdataOf .rdDivhi (st 0x1234#16 0 0 0#8 []) = some 0x12#8 := by decide
theorem test_rd_unmapped : rdataOf (.rdUnmapped 4) (st 0x1234#16 0 0 0x41#8 []) = some 0x00#8 := by decide

-- ## 2.4: writes

theorem test_wr_data_accepted : (after (.wrData 0x55#8) (st 0x0018#16 0 0 0x41#8 [])).map (fun t => (t.txCnt, t.sink, t.diag)) =
    some (1728, [0x55#8], []) := by decide
theorem test_wr_data_rejected : (after (.wrData 0x57#8) (st 0x0018#16 1 0 0x41#8 [])).map (fun t => (t.txCnt, t.sink, t.diag)) =
    some (1, [], [0x57#8]) := by decide
theorem test_wr_data_no_sink : (after (.wrData 0x55#8) { st 0x0018#16 0 0 0x41#8 [] with sinkBound := false }).map
    (fun t => (t.txCnt, t.sink)) = some (1728, []) := by decide
theorem test_wr_status : (after (.wrStatus 0x00#8) (st 0x0018#16 1728 0 0x41#8 [])).map view =
    some (0x0018#16, 1728, 0, 0x41#8, []) := by decide
theorem test_wr_divlo : (after (.wrDivlo 0xFF#8) (st 0x0018#16 1728 5 0x41#8 [])).map view =
    some (0x00FF#16, 1728, 5, 0x41#8, []) := by decide
theorem test_wr_divhi : (after (.wrDivhi 0x12#8) (st 0x0034#16 0 0 0x41#8 [])).map view =
    some (0x1234#16, 0, 0, 0x41#8, []) := by decide
theorem test_wr_unmapped : (after (.wrUnmapped 4 0xFF#8) (st 0x0018#16 0 0 0x41#8 [])).map view =
    some (0x0018#16, 0, 0, 0x41#8, []) ∧ outOf (.wrUnmapped 4 0xFF#8) (st 0x0018#16 0 0 0x41#8 []) = some {} := by decide

-- ## 2.5: RESET, warm, in flight

theorem test_reset_warm : (after .reset (st 0xABCD#16 1478 1478 0x41#8 [0x42#8, 0x43#8])).map view =
    some (0x0018#16, 0, 0, 0x42#8, [0x43#8]) ∧
    outOf .reset (st 0xABCD#16 1478 1478 0x41#8 [0x42#8, 0x43#8]) = some { srcTake := true } := by decide
theorem test_reset_draws : (after .reset (st 0xABCD#16 9 9 0x41#8 [])).map (fun t => (t.div, t.txCnt, t.rxCnt, t.out)) =
    some (0x0018#16, 0, 0, {}) := by decide

-- ## The boundary

theorem test_step_from_reset_runs_word : step (State.reset.withFetchWord 18 0x20055) = exec (.wrData 0x55#8) State.reset := by
  rfl
theorem test_wide_access_refused : memRead 0 2 (st 0#16 0 0 0#8 []) = .refused (.accessWidth 2) := by rfl
theorem test_clock_access_then_step : (nextState? (clockEdge ⟨false, true, true, 0, 0x55#8⟩ (st 24#16 0 0 0#8 []))).map
    (fun t => (t.txCnt, t.out)) = some (1703, { sink := some 0x55#8 }) := by decide
theorem test_probe_not_ready : ({ st 24#16 0 0 0x41#8 [0x42#8] with srcCanProbe := true, srcHasMore := false }).rxReady =
    false := by decide
theorem test_parse_line : parseTrace ['R', 'D', ' ', '1', ' ', '=', '>', ' ', '0', 'x', '0', '1', ';', 'x'] =
    some [.rd 1 (some 0x01#8)] := by decide
theorem test_parse_write : parseTrace ['W', 'R', ' ', '0', ',', ' ', '0', 'x', '5', '5', '\n', 'S', 'T', 'E', 'P', ' ', '6', '9'] =
    some [.wr 0 0x55#8, .step 69] := by decide
theorem test_parse_refuses_wide : parseTrace ['T', 'X', ' ', '2', '5', '6'] = none := by decide
theorem test_trace_checks_reads : (runTrace 1 [.rd 2 (some 0x34#8), .rd 3 (some 0x12#8)] (st 0x1234#16 0 0 0#8 [])).isOk =
    true := by decide

-- ## Witnesses: the hypotheses of every statement can be met, each clause at a limit of its range

theorem witness_DecodeInvertsEncode : (Instr.rdUnmapped 255).wellFormed = true ∧ Instr.step.wellFormed = true := by decide
theorem witness_IgnoredFieldsDecodeAlike : canonicalWord 0x100FF#18 = canonicalWord 0x10000#18 ∧ 4 ≤ (4#8).toNat := by decide
theorem witness_TraceNumbersDecode : 0 < 256 ∧ 255 < 256 := by decide
theorem witness_StepRunsThePresentedOperation : ({ st 24#16 0 0 0#8 [] with schedule := [⟨0x30000#18, [0x41#8], true⟩] }).schedule =
    ⟨0x30000#18, [0x41#8], true⟩ :: [] := rfl
theorem witness_StepWithoutOperationIsQuiet : (st 24#16 0 0 0#8 []).schedule = [] := rfl
theorem witness_PlacedWordRunsNext : 18 ≤ 18 ∧ 0x3FFFF < 2 ^ 18 := by decide
theorem witness_StepLowersAndRefills : (0x0FFFF#18).extractLsb' 16 2 = 0#2 := by decide
theorem witness_ReadDataReturnsCacheAndArms : (st 1#16 0 0 0#8 [0x41#8]).quantum.wf = true ∧
    (st 1#16 0 0 0#8 [0x41#8]).div ≠ 0#16 ∧ (st 0#16 0 0 0#8 []).div = 0#16 := by decide
theorem witness_SourceSignalsAgree : (st 24#16 0 0 0#8 [0x41#8]).tryGetNextByte = some 0x41#8 := by decide
theorem witness_DivisorReadsGiveTheLastWrite : lacks .wrDivlo [.wrDivhi 0#8, .step] ∧ lacks .wrDivhi [.wrDivlo 0#8, .step] ∧
    lacks .reset [.wrDivhi 0#8, .wrDivlo 0#8, .step] := by decide
theorem witness_ReadUnmappedGivesZero : (0x104FF#18).extractLsb' 16 2 = 1#2 ∧ 4 ≤ ((0x104FF#18).extractLsb' 8 8).toNat := by
  decide
theorem witness_WriteDataSendsOrDrops : 0 < (st 24#16 1 0 0#8 []).txCnt ∧ (st 24#16 0 0 0#8 []).txCnt = 0 := by decide
theorem witness_EveryOperationCompletes : memRead 0 0 (st 24#16 0 0 0#8 []) = .refused (.accessWidth 0) := rfl
theorem witness_WriteDivloReplacesLowHalf : (st 0x1234#16 0 9 0#8 []).txCnt = 0 := rfl
theorem witness_WriteDivhiReplacesHighHalf : (st 0x1234#16 0 9 0#8 []).txCnt = 0 := rfl
theorem witness_WriteUnmappedDoesNothing : (0x204FF#18).extractLsb' 16 2 = 2#2 ∧ 4 ≤ ((0x204FF#18).extractLsb' 8 8).toNat := by
  decide
theorem witness_ResetInitialisesAndPrimes : (st 24#16 0 0 0#8 [0x41#8]).srcAvail = true ∧ (st 24#16 0 0 0#8 []).srcAvail = false := by
  decide
theorem witness_ReadsLeaveAllButRxCnt : Instr.rdData.isRead = true ∧ (Instr.rdUnmapped 4).isRead = true := by decide
theorem witness_WritesLeaveReceiveSideAlone : (Instr.wrData 0#8).isWrite = true ∧ (Instr.wrUnmapped 4 0#8).isWrite = true := by
  decide
theorem witness_ElementsHaveTheirWritersOnly_step : ∃ t, exec .step (st 24#16 3 3 0x41#8 [0x42#8]) = .next t ∧
    t.txCnt ≠ 3 ∧ t.rxCnt ≠ 3 ∧ t.rxByte ≠ 0x41#8 := ⟨_, rfl, by decide, by decide, by decide⟩
theorem witness_ElementsHaveTheirWritersOnly_div : ∃ t, exec (.wrDivlo 0#8) (st 24#16 0 0 0#8 []) = .next t ∧ t.div ≠ 24#16 :=
  ⟨_, rfl, by decide⟩
theorem witness_PortsAreReachedOnlySo_source : ∃ t, exec .step (st 24#16 3 3 0x41#8 [0x42#8]) = .next t ∧
    t.srcPending ≠ [0x42#8] := ⟨_, rfl, by decide⟩
theorem witness_PortsAreReachedOnlySo_sink : ∃ t, exec (.wrData 1#8) (st 24#16 0 0 0#8 []) = .next t ∧ t.sink ≠ [] :=
  ⟨_, rfl, by decide⟩
theorem witness_PortsAreReachedOnlySo_diag : ∃ t, exec (.wrData 1#8) (st 24#16 1 0 0#8 []) = .next t ∧ t.diag ≠ [] :=
  ⟨_, rfl, by decide⟩
theorem witness_InstanceConstantsNeverChange : ∃ t u, exec .reset (st 24#16 0 0 0#8 []) = .next t ∧
    step (st 24#16 0 0 0#8 []) = .next u := ⟨_, _, rfl, rfl⟩
theorem witness_OutputRecordIsAsR60Says : (∃ t, exec .step (st 24#16 0 25 0#8 [0x41#8]) = .next t ∧ t.out.srcTake = true) ∧
    (st 24#16 0 0 0#8 []).schedule = [] := ⟨⟨_, rfl, by decide⟩, rfl⟩
theorem witness_CountdownSaturatesAndExpiresOnce : (Quantum.mk 25 8).wf = true ∧ (Quantum.mk 25 8).qn < 26 ∧
    25 ≤ (Quantum.mk 25 8).qn := by decide
theorem witness_ArmingValueFitsCntW : (Quantum.mk 1 1).wf = true := by decide
theorem witness_StepAtRestIsIdentity : (st 24#16 0 0 0x41#8 [0x42#8]).txCnt = 0 ∧ (st 24#16 0 0 0x41#8 [0x42#8]).rxCnt = 0 := by
  decide
theorem witness_BusyForExactlyCeilSteps_before : (st 1#16 0 0 0#8 []).quantum.wf = true ∧ (st 1#16 0 0 0#8 []).txBusy = false ∧
    (∃ t, exec (.wrData 1#8) (st 1#16 0 0 0#8 []) = .next t) ∧ lacks .reset [.step, .wrData 2#8, .step] ∧
    stepCount [.step, .wrData 2#8, .step] < (1 * 9 * 8 + 25 - 1) / 25 :=
  ⟨by decide, by decide, ⟨_, rfl⟩, by decide, by decide⟩
theorem witness_BusyForExactlyCeilSteps_after : (1 * 9 * 8 + 25 - 1) / 25 ≤ stepCount [.step, .rdData, .step, .step] ∧
    lacks .reset [.step, .rdData, .step, .step] ∧ lacks .wrData [.step, .rdData, .step, .step] := by decide
theorem witness_RefillInExactlyTheNthStep : (st 1#16 0 0 0#8 [0x41#8]).quantum.wf = true ∧
    (∃ t, exec .rdData (st 1#16 0 0 0#8 [0x41#8]) = .next t) ∧ lacks .reset [.step, .wrData 2#8, .step] ∧
    lacks .rdData [.step, .wrData 2#8, .step] ∧ stepCount [.step, .wrData 2#8, .step] < (1 * 9 * 8 + 25 - 1) / 25 ∧
    stepCount [.step, .wrData 2#8, .step] + 1 = (1 * 9 * 8 + 25 - 1) / 25 ∧ (0 * 9 * 8 + 25 - 1) / 25 = 0 :=
  ⟨by decide, ⟨_, rfl⟩, by decide, by decide, by decide, by decide, by decide⟩
theorem witness_RefillInExactlyTheNthStep_source : (st 1#16 0 0 0#8 [0x41#8]).srcAvail = true ∧
    (st 1#16 0 0 0#8 []).srcAvail = false := by decide
theorem witness_ExpiryRefillsExactlyOnce : 0 < (st 24#16 0 25 0#8 []).rxCnt ∧
    (st 24#16 0 25 0#8 []).rxCnt ≤ (st 24#16 0 25 0#8 []).quantum.qn ∧ (st 24#16 0 0 0#8 []).rxCnt = 0 ∧
    lacks .rdData [.step, .rdStatus] ∧ lacks .reset [.step, .rdStatus] := by decide
theorem witness_ExpiryRefillsExactlyOnce_counting : (st 24#16 0 26 0#8 [0x41#8]).quantum.qn < (st 24#16 0 26 0#8 [0x41#8]).rxCnt := by
  decide
theorem witness_ExpiryRefillsExactlyOnce_armed : ∃ t, exec .rdData (st 1#16 0 0 0#8 []) = .next t ∧ 0 < t.rxCnt :=
  ⟨_, rfl, by decide⟩
theorem witness_IntegerAndRealCountdownsAgree : (st 24#16 0 0 0x41#8 []).quantum.wf = true ∧
    realMatches (st 24#16 0 0 0x41#8 []) ⟨24#16, 0, -3, 0x41#8⟩ ∧ ∃ t, exec .step (st 24#16 0 0 0x41#8 []) = .next t := by
  refine ⟨by decide, ⟨rfl, ?_, ?_, rfl⟩, ⟨_, rfl⟩⟩ <;> norm_num [countdownMatches, st]
theorem witness_StepKeepsTheInvariant : (st 24#16 0 0 0x41#8 []).Inv ∧ ∃ t, step (st 24#16 0 0 0x41#8 []) = .next t :=
  ⟨⟨by decide, .inl rfl, .inl rfl, by decide⟩, ⟨_, rfl⟩⟩
theorem witness_InvariantBoundsTheCountdowns : (st 24#16 1703 1728 0x41#8 []).Inv :=
  ⟨by decide, .inr ⟨24#16, 1, by decide, by decide⟩, .inr ⟨24#16, 0, by decide, by decide⟩, by decide⟩
theorem witness_BusyFlagMovesOnlySo_falls : ∃ t, exec .step (st 24#16 25 26 0#8 []) = .next t ∧
    (st 24#16 25 26 0#8 []).txBusy = true ∧ t.txBusy = false ∧ 0 < t.rxCnt := ⟨_, rfl, by decide, by decide, by decide⟩
theorem witness_BusyFlagMovesOnlySo_rises : ∃ t, exec (.wrData 1#8) (st 1#16 0 0 0#8 []) = .next t ∧
    (st 1#16 0 0 0#8 []).txBusy = false ∧ t.txBusy = true := ⟨_, rfl, by decide, by decide⟩
theorem witness_NothingMovesWithoutSteps : lacks .step [.rdData, .wrData 1#8] ∧ lacks .reset [.rdData, .wrData 1#8] ∧
    (st 24#16 1 0 0#8 []).txBusy = true := by decide
theorem witness_BlockDependsOnItsSamplesOnly :
    sameBlock (st 24#16 0 3 0#8 [0x41#8]) { st 24#16 0 3 0#8 [0x41#8, 0x42#8] with sink := [1#8] } ∧
    (st 24#16 0 3 0#8 [0x41#8]).tryGetNextByte = (st 24#16 0 3 0#8 [0x41#8, 0x42#8]).tryGetNextByte ∧
    ∃ t, exec .step (st 24#16 0 3 0#8 [0x41#8]) = .next t := ⟨by decide, by decide, ⟨_, rfl⟩⟩
theorem witness_DivisorIsSampledAtArmingOnly : Instr.wrData 1#8 ≠ .rdData ∧
    ((Instr.wrData 1#8).opName = .wrData → (st 24#16 1 0 0#8 []).txBusy = true) := by decide
theorem witness_FreshReadsAreTheSourceInOrder : (st 24#16 0 0 0#8 [0x41#8, 0x42#8]).srcAvail = true ∧
    (∃ t, exec .reset (st 24#16 0 0 0#8 [0x41#8, 0x42#8]) = .next t) ∧ lacks .reset [.rdData, .step, .rdData] :=
  ⟨by decide, ⟨_, rfl⟩, by decide⟩
theorem witness_ExhaustedSourceIsNeverReady : (st 24#16 0 3 0x41#8 []).srcPending = [] ∧ lacks .reset [.step, .rdData] := by
  decide
theorem witness_SeenIdleMeansAccepted : (st 24#16 0 3 0x41#8 []).txBusy = false ∧ lacks .wrData [.step, .rdData, .reset] := by
  decide
theorem witness_DivisorZeroNeverPacesOrRefills : (st 0#16 0 0 0x41#8 []).div = 0#16 ∧ (st 0#16 0 0 0x41#8 []).sinkBound = true ∧
    lacks .wrDivlo [.wrData 1#8, .rdData, .step] ∧ lacks .wrDivhi [.wrData 1#8, .rdData, .step] ∧
    lacks .reset [.wrData 1#8, .rdData, .step] := by decide
theorem witness_RereadingStarvesTheReceiver : (st 1#16 0 0 0#8 []).quantum.wf = true ∧
    ∀ g ∈ [2, 2, 0], g < (1 * 9 * 8 + 25 - 1) / 25 := by decide
theorem witness_LateSourceGivesOneDuplicate : (st 1#16 0 25 0#8 []).quantum.wf = true ∧ (st 1#16 0 25 0#8 []).div ≠ 0#16 ∧
    0 < (st 1#16 0 25 0#8 []).rxCnt ∧ (st 1#16 0 25 0#8 []).rxCnt ≤ (st 1#16 0 25 0#8 []).quantum.qn ∧
    (st 1#16 0 25 0#8 []).srcPending = [] := by decide
theorem witness_ResetForgetsTheBlock : (st 1#16 9 9 1#8 [0x41#8]).tryGetNextByte = (st 2#16 0 0 2#8 [0x41#8]).tryGetNextByte ∧
    (st 1#16 9 9 1#8 [0x41#8]).draws = (st 2#16 0 0 2#8 [0x41#8]).draws := by decide
theorem witness_OnlyByteAccessesExist : 0 ≠ 1 ∧ 2 ≠ 1 := by decide
theorem witness_ClockEdgePerformsAccessThenStep : (InPorts.mk true false false 0 0#8).rst = true ∧
    (InPorts.mk false true false 0 0#8).sel = true ∧ (InPorts.mk false false false 0 0#8).sel = false := by decide
theorem witness_WaitTxEndsOnTime : (st 24#16 26 0 0#8 []).quantum.wf = true ∧ 2 ≤ (26 + 25 - 1) / 25 := by decide
theorem witness_WaitRxNeverEndsWhenExhausted : (st 24#16 0 0 0x41#8 []).srcPending = [] := rfl

end Sys2Proof.Tests
end

section
/-! PROOFS. The decoder against the opcode table in match and mask form (spec/30_encoding.md R54): the table is two kind
rows around two blocks of register rows, and in a block the winner is the row of the word's index. -/

namespace Sys2Proof

-- ## The decoder, kind by kind

theorem decodeWord_of_kind_zero {w : OpWord} (h : wordKind w = 0#2) : decodeWord w = .step := by simp [decodeWord, h]

theorem decodeWord_of_kind_one {w : OpWord} (h : wordKind w = 1#2) : decodeWord w = readOp (wordIdx w).toNat := by
  simp [decodeWord, h]

theorem decodeWord_of_kind_two {w : OpWord} (h : wordKind w = 2#2) :
    decodeWord w = writeOp (wordIdx w).toNat (wordData w) := by simp [decodeWord, h]

theorem decodeWord_of_kind_three {w : OpWord} (h : wordKind w = 3#2) : decodeWord w = .reset := by simp [decodeWord, h]

theorem wordKind_cases (w : OpWord) : wordKind w = 0#2 ∨ wordKind w = 1#2 ∨ wordKind w = 2#2 ∨ wordKind w = 3#2 := by
  generalize wordKind w = k
  revert k
  decide

theorem readOp_wellFormed {idx : Nat} (h : idx < 256) : (readOp idx).wellFormed = true :=
  match idx with
  | 0 | 1 | 2 | 3 => rfl
  | n + 4 => (unmappedIndex_iff (n + 4)).mpr ⟨by omega, h⟩

theorem writeOp_wellFormed {idx : Nat} (h : idx < 256) (v : Byte) : (writeOp idx v).wellFormed = true :=
  match idx with
  | 0 | 1 | 2 | 3 => rfl
  | n + 4 => (unmappedIndex_iff (n + 4)).mpr ⟨by omega, h⟩

theorem decodeWord_wellFormed (w : OpWord) : (decodeWord w).wellFormed = true := by
  obtain h | h | h | h := wordKind_cases w
  · rw [decodeWord_of_kind_zero h]; rfl
  · rw [decodeWord_of_kind_one h]; exact readOp_wellFormed (wordIdx w).isLt
  · rw [decodeWord_of_kind_two h]; exact writeOp_wellFormed (wordIdx w).isLt _
  · rw [decodeWord_of_kind_three h]; rfl

theorem readOp_opName_unmapped {idx : Nat} (h : 4 ≤ idx) : (readOp idx).opName = .rdUnmapped := by
  obtain ⟨n, rfl⟩ := Nat.exists_eq_add_of_le' h
  rfl

theorem writeOp_opName_unmapped {idx : Nat} (h : 4 ≤ idx) (v : Byte) : (writeOp idx v).opName = .wrUnmapped := by
  obtain ⟨n, rfl⟩ := Nat.exists_eq_add_of_le' h
  rfl

/-- The byte written does not change the row. -/
theorem writeOp_opName (idx : Nat) (v v' : Byte) : (writeOp idx v).opName = (writeOp idx v').opName :=
  match idx with
  | 0 | 1 | 2 | 3 | _ + 4 => rfl

-- ## The rows by the fields they fix

/-- A row that fixes the kind only. -/
def kindRow (n : OpName) (k : BitVec 2) : OpRow := ⟨n, assembleWord k 0#8 0#8, assembleWord 3#2 0#8 0#8⟩

/-- A row that fixes the kind and the index. -/
def indexRow (n : OpName) (k : BitVec 2) (i : BitVec 8) : OpRow := ⟨n, assembleWord k i 0#8, assembleWord 3#2 0xFF#8 0#8⟩

/-- The rows of one access kind: some indices each by itself, then any other index. `name` gives a row's name from its
index, `other` is the name of the last row. -/
def registerRows (k : BitVec 2) (name : Nat → OpName) (other : OpName) (idxs : List (BitVec 8)) : List OpRow :=
  idxs.map (fun i => indexRow (name i.toNat) k i) ++ [kindRow other k]

/-- The mapped indices, 0 to 3 (R31). -/
def mappedIdxs : List (BitVec 8) := [0#8, 1#8, 2#8, 3#8]

theorem four_le_of_not_mem_mappedIdxs {i : BitVec 8} (h : i ∉ mappedIdxs) : 4 ≤ i.toNat := by
  simp only [mappedIdxs, List.mem_cons, List.not_mem_nil, or_false, not_or] at h
  bv_omega

/-- The opcode table: `STEP`, the reads, the writes, `RESET` (R54). -/
theorem opcodeRows_eq_blocks : opcodeRows =
    [kindRow .step 0#2] ++ (registerRows 1#2 (fun idx => (readOp idx).opName) .rdUnmapped mappedIdxs ++
      (registerRows 2#2 (fun idx => (writeOp idx 0#8).opName) .wrUnmapped mappedIdxs ++ [kindRow .reset 3#2])) := rfl

theorem assembleWord_inj {k k' : BitVec 2} {i i' : BitVec 8} {d d' : Byte} :
    assembleWord k i d = assembleWord k' i' d' ↔ k = k' ∧ i = i' ∧ d = d' := by
  constructor
  · intro h
    refine ⟨?_, ?_, ?_⟩
    · simpa only [wordKind_assembleWord] using congrArg wordKind h
    · simpa only [wordIdx_assembleWord] using congrArg wordIdx h
    · simpa only [wordData_assembleWord] using congrArg wordData h
  · rintro ⟨rfl, rfl, rfl⟩; rfl

/-- A word under a mask made of fields: the mask of each field over the word's field. -/
theorem and_assembleWord (w : OpWord) (k : BitVec 2) (i : BitVec 8) (d : Byte) :
    w &&& assembleWord k i d = assembleWord (wordKind w &&& k) (wordIdx w &&& i) (wordData w &&& d) := by
  rw [← assembleWord_and, assembleWord_fields]

@[simp] theorem kindRow_hits (n : OpName) (k : BitVec 2) (w : OpWord) :
    (kindRow n k).hits w = decide (wordKind w = k) := by
  have hk : wordKind w &&& 3#2 = wordKind w := BitVec.and_allOnes
  simp [OpRow.hits, kindRow, and_assembleWord, assembleWord_inj, hk, Bool.beq_eq_decide_eq]

@[simp] theorem indexRow_hits (n : OpName) (k : BitVec 2) (i : BitVec 8) (w : OpWord) :
    (indexRow n k i).hits w = decide (wordKind w = k ∧ wordIdx w = i) := by
  have hk : wordKind w &&& 3#2 = wordKind w := BitVec.and_allOnes
  have hi : wordIdx w &&& 0xFF#8 = wordIdx w := BitVec.and_allOnes
  simp [OpRow.hits, indexRow, and_assembleWord, assembleWord_inj, hk, hi, Bool.beq_eq_decide_eq]

theorem registerRows_miss {w : OpWord} {k : BitVec 2} (h : wordKind w ≠ k) (name : Nat → OpName) (other : OpName)
    (idxs : List (BitVec 8)) : ∀ r ∈ registerRows k name other idxs, r.hits w = false := by
  intro r hr
  rw [registerRows, List.mem_append, List.mem_map, List.mem_singleton] at hr
  obtain ⟨i, -, rfl⟩ | rfl := hr <;> simp [h]

@[simp] theorem maskBits_kindRow (n : OpName) (k : BitVec 2) : maskBits (kindRow n k).mask = 2 := by
  show maskBits (assembleWord 3#2 0#8 0#8) = 2
  decide

@[simp] theorem maskBits_indexRow (n : OpName) (k : BitVec 2) (i : BitVec 8) : maskBits (indexRow n k i).mask = 10 := by
  show maskBits (assembleWord 3#2 0xFF#8 0#8) = 10
  decide

-- ## The row that wins

theorem winningRow_cons_of_miss {w : OpWord} {r : OpRow} (h : r.hits w = false) (rest : List OpRow) :
    winningRow w (r :: rest) = winningRow w rest := by
  rw [winningRow]
  cases winningRow w rest <;> simp [h]

/-- Rows that miss the word do not matter before others. -/
theorem winningRow_append_of_left_miss {w : OpWord} {rows : List OpRow} (h : ∀ r ∈ rows, r.hits w = false)
    (rest : List OpRow) : winningRow w (rows ++ rest) = winningRow w rest := by
  induction rows with
  | nil => rfl
  | cons r rows ih =>
    rw [List.forall_mem_cons] at h
    rw [List.cons_append, winningRow_cons_of_miss h.1, ih h.2]

theorem winningRow_eq_none_of_miss {w : OpWord} {rows : List OpRow} (h : ∀ r ∈ rows, r.hits w = false) :
    winningRow w rows = none := by
  simpa [winningRow] using winningRow_append_of_left_miss h []

/-- Rows that miss the word do not matter after others. -/
theorem winningRow_append_of_right_miss {w : OpWord} {rest : List OpRow} (h : ∀ r ∈ rest, r.hits w = false)
    (rows : List OpRow) : winningRow w (rows ++ rest) = winningRow w rows := by
  induction rows with
  | nil => exact winningRow_eq_none_of_miss h
  | cons r rows ih => simp only [List.cons_append, winningRow, ih]

/-- A row that matches wins over later rows, when their winner has no more mask bits. -/
theorem winningRow_cons_of_hit {w : OpWord} {r : OpRow} {rest : List OpRow} (h : r.hits w = true)
    (hbest : ∀ best ∈ winningRow w rest, maskBits best.mask ≤ maskBits r.mask) : winningRow w (r :: rest) = some r := by
  rw [winningRow]
  cases hw : winningRow w rest with
  | none => simp [h]
  | some best => simp [h, hbest best hw]

theorem winningRow_kindRow {w : OpWord} {k : BitVec 2} (h : wordKind w = k) (n : OpName) :
    winningRow w [kindRow n k] = some (kindRow n k) := by
  simp [winningRow, h]

/-- Among the rows of the word's kind the row of its index wins, and the row of any other index where there is none. -/
theorem winningRow_registerRows {w : OpWord} {k : BitVec 2} (h : wordKind w = k) (name : Nat → OpName) (other : OpName)
    (idxs : List (BitVec 8)) : winningRow w (registerRows k name other idxs) =
      some (if wordIdx w ∈ idxs then indexRow (name (wordIdx w).toNat) k (wordIdx w) else kindRow other k) := by
  induction idxs with
  | nil => simpa [registerRows] using winningRow_kindRow h other
  | cons i idxs ih =>
    rw [show registerRows k name other (i :: idxs) =
      indexRow (name i.toNat) k i :: registerRows k name other idxs from rfl]
    by_cases hi : wordIdx w = i
    · rw [winningRow_cons_of_hit (by simp [h, hi])]
      · simp [hi]
      · rw [ih]
        split <;> simp
    · rw [winningRow_cons_of_miss (by simp [hi]), ih]
      simp [hi]

/-- With the four mapped indices the winner's name is the one of the word's index. -/
theorem winningRow_mapped_name {w : OpWord} {k : BitVec 2} (h : wordKind w = k) {name : Nat → OpName} {other : OpName}
    (hother : ∀ idx, 4 ≤ idx → name idx = other) :
    (winningRow w (registerRows k name other mappedIdxs)).map (·.name) = some (name (wordIdx w).toNat) := by
  rw [winningRow_registerRows h]
  split
  · rfl
  · next hi => rw [hother _ (four_le_of_not_mem_mappedIdxs hi)]; rfl

-- ## In the table the rows of the other kinds miss, so the winner is the one among the rows of the word's kind

theorem winningRow_opcodeRows_of_kind_zero {w : OpWord} (h : wordKind w = 0#2) :
    winningRow w opcodeRows = some (kindRow .step 0#2) := by
  rw [opcodeRows_eq_blocks, winningRow_append_of_right_miss, winningRow_kindRow h]
  rw [List.forall_mem_append, List.forall_mem_append]
  exact ⟨registerRows_miss (by simp [h]) _ _ _, registerRows_miss (by simp [h]) _ _ _, by simp [h]⟩

theorem winningRow_opcodeRows_of_kind_one {w : OpWord} (h : wordKind w = 1#2) : winningRow w opcodeRows =
    winningRow w (registerRows 1#2 (fun idx => (readOp idx).opName) .rdUnmapped mappedIdxs) := by
  rw [opcodeRows_eq_blocks, winningRow_append_of_left_miss (by simp [h]),
    winningRow_append_of_right_miss]
  rw [List.forall_mem_append]
  exact ⟨registerRows_miss (by simp [h]) _ _ _, by simp [h]⟩

theorem winningRow_opcodeRows_of_kind_two {w : OpWord} (h : wordKind w = 2#2) : winningRow w opcodeRows =
    winningRow w (registerRows 2#2 (fun idx => (writeOp idx 0#8).opName) .wrUnmapped mappedIdxs) := by
  rw [opcodeRows_eq_blocks, winningRow_append_of_left_miss (by simp [h]),
    winningRow_append_of_left_miss (registerRows_miss (by simp [h]) _ _ _), winningRow_append_of_right_miss]
  simp [h]

theorem winningRow_opcodeRows_of_kind_three {w : OpWord} (h : wordKind w = 3#2) :
    winningRow w opcodeRows = some (kindRow .reset 3#2) := by
  rw [opcodeRows_eq_blocks, winningRow_append_of_left_miss (by simp [h]),
    winningRow_append_of_left_miss (registerRows_miss (by simp [h]) _ _ _),
    winningRow_append_of_left_miss (registerRows_miss (by simp [h]) _ _ _), winningRow_kindRow h]

theorem winningRow_name (w : OpWord) : (winningRow w opcodeRows).map (·.name) = some (decodeWord w).opName := by
  obtain h | h | h | h := wordKind_cases w
  · rw [winningRow_opcodeRows_of_kind_zero h, decodeWord_of_kind_zero h]; rfl
  · rw [winningRow_opcodeRows_of_kind_one h, decodeWord_of_kind_one h]
    exact winningRow_mapped_name h fun _ => readOp_opName_unmapped
  · rw [winningRow_opcodeRows_of_kind_two h, decodeWord_of_kind_two h, writeOp_opName _ _ 0#8]
    exact winningRow_mapped_name h fun _ hidx => writeOp_opName_unmapped hidx _
  · rw [winningRow_opcodeRows_of_kind_three h, decodeWord_of_kind_three h]; rfl

/-- Settles O3, by the word's kind: the rows of other kinds miss, and the row of the word's index has the most mask bits
among those of its kind. -/
theorem decoderIsTheOpcodeTable : Obligations.DecoderIsTheOpcodeTable := fun w =>
  ⟨decodeWord_wellFormed w, winningRow_name w⟩

end Sys2Proof
end

section
/-! PROOFS. The five register reads (spec/42_register_reads.md R92 to R95): a read changes the inbound countdown at
most, and the divisor, which two of the reads show by halves, changes as `divAfter` says. -/

namespace Sys2Proof

-- ## Which operation a read of an index is

theorem readOp_unmapped {idx : Nat} (h : 4 ≤ idx) : readOp idx = .rdUnmapped idx := by
  obtain ⟨n, rfl⟩ := Nat.exists_eq_add_of_le' h
  rfl

theorem readOp_isRead (idx : Nat) : (readOp idx).isRead = true :=
  match idx with
  | 0 | 1 | 2 | 3 | _ + 4 => rfl

end Sys2Proof

namespace Sys2Proof.Machine

/-- Settles O17: the index is compared whole, so one of 4 or more is none of the mapped ones. -/
theorem readUnmappedGivesZero : Obligations.ReadUnmappedGivesZero :=
  ⟨exec_rdUnmapped_eq, fun _ => readOp_unmapped, fun _ hkind hidx =>
    (decodeWord_of_kind_one hkind).trans (readOp_unmapped hidx)⟩

-- ## The frame of a read

/-- All that a read can do: a byte goes out, and `RD_DATA` gives the inbound countdown another value (R95). -/
theorem exec_of_isRead {i : Instr} (h : i.isRead = true) (s : State) : ∃ (c : Nat) (b : Byte),
    exec i s = .next ((s.setRxCnt c).emit { rdata := some b }) ∧ (i ≠ .rdData → c = s.rxCnt) := by
  cases i with
  | rdData => exact ⟨_, _, exec_rdData_eq s, fun hne => absurd rfl hne⟩
  | rdStatus => exact ⟨_, _, exec_rdStatus_eq s, fun _ => rfl⟩
  | rdDivlo => exact ⟨_, _, exec_rdDivlo_eq s, fun _ => rfl⟩
  | rdDivhi => exact ⟨_, _, exec_rdDivhi_eq s, fun _ => rfl⟩
  | rdUnmapped idx => exact ⟨_, _, exec_rdUnmapped_eq idx s, fun _ => rfl⟩
  | step | wrData | wrStatus | wrDivlo | wrDivhi | wrUnmapped | reset => cases h

/-- Settles O25: what a read answers with differs from the state it found in `rx_cnt` and the output record only. -/
theorem readsLeaveAllButRxCnt : Obligations.ReadsLeaveAllButRxCnt := by
  refine ⟨fun i s hread => ?_, fun idx v w => ⟨rfl, readOp_isRead idx⟩⟩
  obtain ⟨c, b, hexec, hrx⟩ := exec_of_isRead hread s
  exact ⟨_, b, hexec, rfl, rfl, rfl, rfl, ⟨rfl, rfl, rfl⟩, ⟨rfl, rfl, rfl, rfl, rfl⟩, rfl, hrx⟩

-- ## What an operation makes of the divisor

@[simp] theorem refill_div (s : State) : s.refill.div = s.div := by
  obtain ⟨b, -, -, h⟩ | ⟨-, h⟩ := refill_cases s <;> simp [h]

@[simp] theorem prime_div (s : State) : s.prime.div = s.div := by
  obtain ⟨b, -, -, h⟩ | ⟨-, h⟩ := prime_cases s <;> simp [h]

/-- The divisor after an operation: its writers are the writes of its halves and `RESET` (R10, R11). -/
def divAfter (i : Instr) (d : Divisor) : Divisor :=
  match i with
  | .wrDivlo b => replaceLo d b
  | .wrDivhi b => replaceHi d b
  | .reset => divReset
  | .step | .rdData | .rdStatus | .rdDivlo | .rdDivhi | .rdUnmapped _ | .wrData _ | .wrStatus _ | .wrUnmapped _ _ => d

/-- Every operation completes, and leaves the divisor as `divAfter` says. -/
theorem exec_div (i : Instr) (s : State) : ∃ t, exec i s = .next t ∧ t.div = divAfter i s.div := by
  cases i with
  | step =>
    refine ⟨_, exec_step_eq s, ?_⟩
    rw [State.emit_div]
    split
    · exact refill_div _
    · rfl
  | rdData | rdStatus | rdDivlo | rdDivhi | rdUnmapped | wrStatus | wrDivlo | wrDivhi | wrUnmapped => exact ⟨_, rfl, rfl⟩
  | wrData b =>
    cases hbusy : s.txBusy with
    | true => exact ⟨_, exec_wrData_busy b hbusy, rfl⟩
    | false => exact ⟨_, exec_wrData_idle b hbusy, rfl⟩
  | reset => exact ⟨_, exec_reset_eq s, prime_div _⟩

-- ## The halves of the divisor

theorem divLo_replaceLo (d : Divisor) (b : Byte) : divLo (replaceLo d b) = b := BitVec.extractLsb'_append_eq_right

theorem divHi_replaceHi (d : Divisor) (b : Byte) : divHi (replaceHi d b) = b := BitVec.extractLsb'_append_eq_left

theorem divLo_replaceHi (d : Divisor) (b : Byte) : divLo (replaceHi d b) = divLo d := BitVec.extractLsb'_append_eq_right

theorem divHi_replaceLo (d : Divisor) (b : Byte) : divHi (replaceLo d b) = divHi d := BitVec.extractLsb'_append_eq_left

theorem divLo_divReset : divLo divReset = 0x18#8 := by decide

theorem divHi_divReset : divHi divReset = 0x00#8 := by decide

/-- The low half is written by `WR_DIVLO` and `RESET` only. -/
theorem divLo_divAfter {i : Instr} (hlo : i.opName ≠ .wrDivlo) (hreset : i.opName ≠ .reset) (d : Divisor) :
    divLo (divAfter i d) = divLo d := by
  cases i with
  | wrDivlo => exact absurd rfl hlo
  | reset => exact absurd rfl hreset
  | wrDivhi b => exact divLo_replaceHi d b
  | step | rdData | rdStatus | rdDivlo | rdDivhi | rdUnmapped | wrData | wrStatus | wrUnmapped => rfl

/-- The high half is written by `WR_DIVHI` and `RESET` only. -/
theorem divHi_divAfter {i : Instr} (hhi : i.opName ≠ .wrDivhi) (hreset : i.opName ≠ .reset) (d : Divisor) :
    divHi (divAfter i d) = divHi d := by
  cases i with
  | wrDivhi => exact absurd rfl hhi
  | reset => exact absurd rfl hreset
  | wrDivlo b => exact divHi_replaceLo d b
  | step | rdData | rdStatus | rdDivlo | rdDivhi | rdUnmapped | wrData | wrStatus | wrUnmapped => rfl

-- ## A half of the divisor along a run

/-- What of the divisor every operation of a run keeps, the run keeps. -/
theorem runOps_keeps_of_divAfter {half : Divisor → Byte} {ops : List Instr}
    (hkeep : ∀ i ∈ ops, ∀ d, half (divAfter i d) = half d) (s : State) :
    ∃ t, runOps ops s = .next t ∧ half t.div = half s.div := by
  induction ops generalizing s with
  | nil => exact ⟨s, rfl, rfl⟩
  | cons i ops ih =>
    rw [List.forall_mem_cons] at hkeep
    obtain ⟨u, hexec, hdiv⟩ := exec_div i s
    obtain ⟨t, hrun, hhalf⟩ := ih hkeep.2 u
    exact ⟨t, (runOps_cons hexec ops).trans hrun, by rw [hhalf, hdiv, hkeep.1]⟩

/-- The operation a run begins with sets a half; the run keeps it, where every later operation does. -/
theorem runOps_cons_half {half : Divisor → Byte} {ops : List Instr}
    (hkeep : ∀ i ∈ ops, ∀ d, half (divAfter i d) = half d) (first : Instr) (s : State) :
    ∃ t, runOps (first :: ops) s = .next t ∧ half t.div = half (divAfter first s.div) := by
  obtain ⟨u, hexec, hdiv⟩ := exec_div first s
  obtain ⟨t, hrun, hhalf⟩ := runOps_keeps_of_divAfter hkeep u
  exact ⟨t, (runOps_cons hexec ops).trans hrun, hdiv ▸ hhalf⟩

/-- `RD_DIVLO` after a run with no later writer of the low half gives what the run's first operation made of it. -/
theorem rdDivlo_after_run {ops : List Instr} (hlo : lacks .wrDivlo ops) (hreset : lacks .reset ops) (first : Instr)
    (s : State) : ∃ t u, runOps (first :: ops) s = .next t ∧ exec .rdDivlo t = .next u ∧
      u.out.rdata = some (divLo (divAfter first s.div)) := by
  obtain ⟨t, hrun, hhalf⟩ := runOps_cons_half (fun i hi => divLo_divAfter (hlo i hi) (hreset i hi)) first s
  exact ⟨t, _, hrun, exec_rdDivlo_eq t, congrArg some hhalf⟩

/-- `RD_DIVHI` after a run with no later writer of the high half gives what the run's first operation made of it. -/
theorem rdDivhi_after_run {ops : List Instr} (hhi : lacks .wrDivhi ops) (hreset : lacks .reset ops) (first : Instr)
    (s : State) : ∃ t u, runOps (first :: ops) s = .next t ∧ exec .rdDivhi t = .next u ∧
      u.out.rdata = some (divHi (divAfter first s.div)) := by
  obtain ⟨t, hrun, hhalf⟩ := runOps_cons_half (fun i hi => divHi_divAfter (hhi i hi) (hreset i hi)) first s
  exact ⟨t, _, hrun, exec_rdDivhi_eq t, congrArg some hhalf⟩

/-- Settles O16: the first operation of the run sets the half, and the operations after it keep it. -/
theorem divisorReadsGiveTheLastWrite : Obligations.DivisorReadsGiveTheLastWrite := by
  refine ⟨fun s => ⟨exec_rdDivlo_eq s, exec_rdDivhi_eq s⟩, fun s b ops hlo hreset => ?_, fun s b ops hhi hreset => ?_,
    fun s ops hlo hreset => ?_, fun s ops hhi hreset => ?_, by decide, by decide⟩
  · simpa only [divAfter, divLo_replaceLo] using rdDivlo_after_run hlo hreset (.wrDivlo b) s
  · simpa only [divAfter, divHi_replaceHi] using rdDivhi_after_run hhi hreset (.wrDivhi b) s
  · simpa only [divAfter, divLo_divReset] using rdDivlo_after_run hlo hreset .reset s
  · simpa only [divAfter, divHi_divReset] using rdDivhi_after_run hhi hreset .reset s

end Sys2Proof.Machine
end

section
/-! PROOFS. The register writes (spec/43_register_writes.md R101, R104, R105): a write of a read-only or an unmapped
index leaves all as it was, and no write reaches the receive side. -/

namespace Sys2Proof

-- ## Which operation a write of an index is

theorem writeOp_unmapped {idx : Nat} (h : 4 ≤ idx) (v : Byte) : writeOp idx v = .wrUnmapped idx v := by
  obtain ⟨n, rfl⟩ := Nat.exists_eq_add_of_le' h
  rfl

theorem writeOp_isWrite (idx : Nat) (v : Byte) : (writeOp idx v).isWrite = true :=
  match idx with
  | 0 | 1 | 2 | 3 | _ + 4 => rfl

theorem decodeWord_assembleWord_write (idx : BitVec 8) (v : Byte) :
    decodeWord (assembleWord 2#2 idx v) = writeOp idx.toNat v := by
  rw [decodeWord_of_kind_two (wordKind_assembleWord _ _ _), wordIdx_assembleWord, wordData_assembleWord]

end Sys2Proof

namespace Sys2Proof.Machine

-- ## The writes that do nothing

/-- Settles O19: the status is read-only, and the words `0x20100` to `0x201FF` are those of kind 2 and index 1. -/
theorem writeStatusDoesNothing : Obligations.WriteStatusDoesNothing :=
  ⟨fun s b => exec_wrStatus_eq b s, decodeWord_assembleWord_write 1#8⟩

/-- Settles O22: the index is compared whole, so one of 4 or more is none of the mapped ones. -/
theorem writeUnmappedDoesNothing : Obligations.WriteUnmappedDoesNothing :=
  ⟨exec_wrUnmapped_eq, fun _ b hidx => writeOp_unmapped hidx b, fun _ hkind hidx =>
    (decodeWord_of_kind_two hkind).trans (writeOp_unmapped hidx _)⟩

-- ## The frame of a write

/-- All that a write can do: it gives the divisor, the outbound countdown, the sink's log and the diagnostic log other
values, and puts out no read byte and no take of a source byte (R105). -/
theorem exec_of_isWrite {i : Instr} (h : i.isWrite = true) (s : State) :
    ∃ (d : Divisor) (c : Nat) (sent dropped : List Byte) (o : Output),
      exec i s = .next { s with div := d, txCnt := c, sink := sent, diag := dropped, out := o } ∧
        o.rdata = none ∧ o.srcTake = false := by
  cases i with
  | wrData b =>
    cases hbusy : s.txBusy with
    | true => exact ⟨_, _, _, _, _, exec_wrData_busy b hbusy, rfl, rfl⟩
    | false => exact ⟨_, _, _, _, _, exec_wrData_idle b hbusy, rfl, rfl⟩
  | wrStatus b => exact ⟨_, _, _, _, _, exec_wrStatus_eq b s, rfl, rfl⟩
  | wrDivlo b => exact ⟨_, _, _, _, _, exec_wrDivlo_eq b s, rfl, rfl⟩
  | wrDivhi b => exact ⟨_, _, _, _, _, exec_wrDivhi_eq b s, rfl, rfl⟩
  | wrUnmapped idx b => exact ⟨_, _, _, _, _, exec_wrUnmapped_eq idx b s, rfl, rfl⟩
  | step | rdData | rdStatus | rdDivlo | rdDivhi | rdUnmapped | reset => cases h

/-- Settles O26: nothing of the receive side, the source or the instance is among what a write can change. -/
theorem writesLeaveReceiveSideAlone : Obligations.WritesLeaveReceiveSideAlone := by
  refine ⟨fun i s hwrite => ?_, writeOp_isWrite⟩
  obtain ⟨d, c, sent, dropped, o, hexec, hrdata, htake⟩ := exec_of_isWrite hwrite s
  exact ⟨_, hexec, hrdata, htake, rfl, rfl, rfl, ⟨rfl, rfl, rfl, rfl, rfl⟩, rfl⟩

end Sys2Proof.Machine
end

section
/-! PROOFS. Every operation completes (spec/60_exceptions.md R110): `exec` and `step` always answer with a next state, so
a refusal can only come from the width that the bus boundary checks (spec/20_memory.md R35). -/

namespace Sys2Proof.Machine

-- ## The operations and the step

theorem exec_completes (i : Instr) (s : State) : ∃ t, exec i s = .next t := by
  obtain ⟨t, hexec, -⟩ := exec_div i s
  exact ⟨t, hexec⟩

theorem step_completes (s : State) : ∃ t, step s = .next t := by
  cases hsched : s.schedule with
  | nil => exact ⟨_, step_of_schedule_nil hsched⟩
  | cons p rest =>
    rw [step_of_schedule_cons hsched]
    exact exec_completes _ _

theorem exec_ne_refused (i : Instr) (s : State) (r : Refusal) : exec i s ≠ .refused r := by
  obtain ⟨t, hexec⟩ := exec_completes i s
  rw [hexec]
  nofun

-- ## The bus boundary

theorem memRead_one (idx : Nat) (s : State) : memRead idx 1 s = exec (readOp idx) s := rfl

theorem memWrite_one (idx : Nat) (b : Byte) (s : State) : memWrite idx 1 b s = exec (writeOp idx b) s := rfl

/-- Settles O11: of width 1 an access at the bus boundary is the operation itself, which is never refused. -/
theorem everyOperationCompletes : Obligations.EveryOperationCompletes := by
  refine ⟨exec_completes, step_completes, nofun, ?_⟩
  rintro s idx size b r (hread | hwrite) rfl
  · exact exec_ne_refused _ _ _ ((memRead_one idx s).symm.trans hread)
  · exact exec_ne_refused _ _ _ ((memWrite_one idx b s).symm.trans hwrite)

end Sys2Proof.Machine
end

section
/-! PROOFS. The decoder against the encoder (spec/30_encoding.md R52, R54, R57): the canonical word of an access is its
kind, its index and its byte put together, and bytes and numbers spell the same words. -/

namespace Sys2Proof

-- ## The canonical word of an operation

/-- The canonical word of a read is kind 1 and the index. -/
theorem encode_readOp (idx : Nat) : encode (readOp idx) = assembleWord 1#2 (BitVec.ofNat 8 idx) 0#8 :=
  match idx with
  | 0 | 1 | 2 | 3 | _ + 4 => rfl

/-- The canonical word of a write is kind 2, the index and the byte. -/
theorem encode_writeOp (idx : Nat) (v : Byte) : encode (writeOp idx v) = assembleWord 2#2 (BitVec.ofNat 8 idx) v :=
  match idx with
  | 0 | 1 | 2 | 3 | _ + 4 => rfl

theorem decodeWord_assembleWord_read (idx : BitVec 8) (v : Byte) :
    decodeWord (assembleWord 1#2 idx v) = readOp idx.toNat := by
  rw [decodeWord_of_kind_one (wordKind_assembleWord _ _ _), wordIdx_assembleWord]

theorem decodeWord_encode_readOp {idx : Nat} (h : idx < 256) : decodeWord (encode (readOp idx)) = readOp idx := by
  rw [encode_readOp, decodeWord_assembleWord_read, BitVec.toNat_ofNat, Nat.mod_eq_of_lt h]

theorem decodeWord_encode_writeOp {idx : Nat} (h : idx < 256) (v : Byte) :
    decodeWord (encode (writeOp idx v)) = writeOp idx v := by
  rw [encode_writeOp, decodeWord_assembleWord_write, BitVec.toNat_ofNat, Nat.mod_eq_of_lt h]

theorem decodeWord_encode {i : Instr} (h : i.wellFormed = true) : decodeWord (encode i) = i := by
  cases i with
  | step => decide
  | reset => decide
  | rdData => exact decodeWord_encode_readOp (idx := 0) (by decide)
  | rdStatus => exact decodeWord_encode_readOp (idx := 1) (by decide)
  | rdDivlo => exact decodeWord_encode_readOp (idx := 2) (by decide)
  | rdDivhi => exact decodeWord_encode_readOp (idx := 3) (by decide)
  | rdUnmapped idx =>
    obtain ⟨hlow, hhigh⟩ := (unmappedIndex_iff idx).mp h
    simpa only [readOp_unmapped hlow] using decodeWord_encode_readOp hhigh
  | wrData v => exact decodeWord_encode_writeOp (idx := 0) (by decide) v
  | wrStatus v => exact decodeWord_encode_writeOp (idx := 1) (by decide) v
  | wrDivlo v => exact decodeWord_encode_writeOp (idx := 2) (by decide) v
  | wrDivhi v => exact decodeWord_encode_writeOp (idx := 3) (by decide) v
  | wrUnmapped idx v =>
    obtain ⟨hlow, hhigh⟩ := (unmappedIndex_iff idx).mp h
    simpa only [writeOp_unmapped hlow] using decodeWord_encode_writeOp hhigh v

-- ## Words as bytes and as numbers

/-- A third byte of 4 or more sets a bit above bit 17. -/
theorem decode_of_four_le {b2 : Byte} (h : 4 ≤ b2.toNat) (b0 b1 : Byte) (rest : List Byte) :
    decode (b0 :: b1 :: b2 :: rest) = .error .notAnOperationWord := if_neg (by omega)

theorem decode_of_lt_four {b2 : Byte} (h : b2.toNat < 4) (b0 b1 : Byte) (rest : List Byte) :
    decode (b0 :: b1 :: b2 :: rest) = .ok (decodeWord (b2.setWidth 2 ++ b1 ++ b0), rest) := if_pos h

/-- The bytes of a word are read as the word, whatever follows them. -/
theorem decode_wordBytes_append (w : OpWord) (rest : List Byte) :
    decode (wordBytes w ++ rest) = .ok (decodeWord w, rest) := by
  have hsmall : ((w.extractLsb' 16 2).setWidth 8).toNat < 4 := by
    rw [BitVec.toNat_setWidth]
    have := (w.extractLsb' 16 2).isLt
    omega
  have hword : ((w.extractLsb' 16 2).setWidth 8).setWidth 2 ++ w.extractLsb' 8 8 ++ w.extractLsb' 0 8 = w := by
    rw [BitVec.setWidth_setWidth_of_le _ (by decide), BitVec.setWidth_eq]
    exact assembleWord_fields w
  rw [show wordBytes w ++ rest = _ :: _ :: _ :: rest from rfl, decode_of_lt_four hsmall, hword]

/-- A number below `2 ^ 18` is read as the word of that number. -/
theorem decodeTableWord_of_lt {nbits n : Nat} (hbits : 18 ≤ nbits) (hn : n < 2 ^ 18) :
    decodeTableWord nbits n = some (decodeWord (BitVec.ofNat 18 n)) := by
  have hmod : n % 2 ^ nbits = n := Nat.mod_eq_of_lt (hn.trans_le (Nat.pow_le_pow_right (by decide) hbits))
  have hbytes : [BitVec.ofNat 8 n, BitVec.ofNat 8 (n / 2 ^ 8), BitVec.ofNat 8 (n / 2 ^ 16)] =
      wordBytes (BitVec.ofNat 18 n) ++ [] := by
    simp only [wordBytes, List.append_nil, List.cons.injEq, and_true]
    refine ⟨?_, ?_, ?_⟩ <;> apply BitVec.eq_of_toNat_eq <;> simp [Nat.shiftRight_eq_div_pow] <;> omega
  rw [decodeTableWord, hmod, if_pos (by omega), hbytes, decode_wordBytes_append]

theorem decodeTableWord_toNat (w : OpWord) : decodeTableWord 18 w.toNat = some (decodeWord w) := by
  rw [decodeTableWord_of_lt le_rfl w.isLt, BitVec.ofNat_toNat, BitVec.setWidth_eq]

/-- Settles O1: what the decoder makes of a word it makes of the word's bytes and of its number too. -/
theorem decodeInvertsEncode : Obligations.DecodeInvertsEncode := fun i h =>
  ⟨decodeWord_encode h, fun rest => by rw [decode_wordBytes_append, decodeWord_encode h], by
    rw [decodeTableWord_toNat, decodeWord_encode h]⟩

-- ## The ignored fields of a word

/-- Under the mask of the kind a word keeps its kind only. -/
theorem and_kindMask (w : OpWord) : w &&& 0x30000#18 = assembleWord (wordKind w) 0#8 0#8 := by
  have hk : wordKind w &&& 3#2 = wordKind w := BitVec.and_allOnes
  rw [show 0x30000#18 = assembleWord 3#2 0#8 0#8 by decide, and_assembleWord, hk, BitVec.and_zero, BitVec.and_zero]

/-- Under the mask of the kind and the index a word loses its byte only. -/
theorem and_indexMask (w : OpWord) : w &&& 0x3FF00#18 = assembleWord (wordKind w) (wordIdx w) 0#8 := by
  have hk : wordKind w &&& 3#2 = wordKind w := BitVec.and_allOnes
  have hi : wordIdx w &&& 0xFF#8 = wordIdx w := BitVec.and_allOnes
  rw [show 0x3FF00#18 = assembleWord 3#2 0xFF#8 0#8 by decide, and_assembleWord, hk, hi, BitVec.and_zero]

theorem canonicalWord_of_kind_zero {w : OpWord} (h : wordKind w = 0#2) :
    canonicalWord w = assembleWord 0#2 0#8 0#8 := by
  simp [canonicalWord, h, and_kindMask]

theorem canonicalWord_of_kind_one {w : OpWord} (h : wordKind w = 1#2) :
    canonicalWord w = assembleWord 1#2 (wordIdx w) 0#8 := by
  simp [canonicalWord, h, and_indexMask]

theorem canonicalWord_of_kind_two {w : OpWord} (h : wordKind w = 2#2) :
    canonicalWord w = assembleWord 2#2 (wordIdx w) (wordData w) := by
  simpa [canonicalWord, h] using (assembleWord_fields w).symm

theorem canonicalWord_of_kind_three {w : OpWord} (h : wordKind w = 3#2) :
    canonicalWord w = assembleWord 3#2 0#8 0#8 := by
  simp [canonicalWord, h, and_kindMask]

theorem encode_decodeWord (w : OpWord) : encode (decodeWord w) = canonicalWord w := by
  obtain h | h | h | h := wordKind_cases w
  · rw [decodeWord_of_kind_zero h, canonicalWord_of_kind_zero h, encode]
  · rw [decodeWord_of_kind_one h, canonicalWord_of_kind_one h, encode_readOp, BitVec.ofNat_toNat, BitVec.setWidth_eq]
  · rw [decodeWord_of_kind_two h, canonicalWord_of_kind_two h, encode_writeOp, BitVec.ofNat_toNat, BitVec.setWidth_eq]
  · rw [decodeWord_of_kind_three h, canonicalWord_of_kind_three h, encode]

/-- Settles O2, kind by kind. -/
theorem encodeOfDecodeIsCanonical : Obligations.EncodeOfDecodeIsCanonical := encode_decodeWord

/-- A word is the operation of its canonical spelling. -/
theorem decodeWord_canonicalWord (w : OpWord) : decodeWord (canonicalWord w) = decodeWord w := by
  rw [← encode_decodeWord, decodeWord_encode (decodeWord_wellFormed w)]

/-- Settles O4: a word decodes as its canonical spelling does. -/
theorem ignoredFieldsDecodeAlike : Obligations.IgnoredFieldsDecodeAlike := by
  refine ⟨fun v w h => ?_, fun b0 b1 b2 rest h => decode_of_four_le h b0 b1 rest⟩
  rw [← decodeWord_canonicalWord v, h, decodeWord_canonicalWord]

-- ## The numbers of a trace

theorem assembleWord_toNat (kind : BitVec 2) (idx : BitVec 8) (data : Byte) :
    (assembleWord kind idx data).toNat = kind.toNat * 2 ^ 16 + idx.toNat * 2 ^ 8 + data.toNat := by
  rw [assembleWord, BitVec.toNat_append, BitVec.toNat_append, ← Nat.shiftLeft_add_eq_or_of_lt data.isLt,
    ← Nat.shiftLeft_add_eq_or_of_lt idx.isLt, Nat.shiftLeft_eq, Nat.shiftLeft_eq]
  ring

theorem encode_readOp_toNat {idx : Nat} (h : idx < 256) : (encode (readOp idx)).toNat = 0x10000 + idx * 0x100 := by
  rw [encode_readOp, assembleWord_toNat, BitVec.toNat_ofNat idx, Nat.mod_eq_of_lt h]
  rfl

theorem encode_writeOp_toNat {idx : Nat} (h : idx < 256) (v : Byte) :
    (encode (writeOp idx v)).toNat = 0x20000 + idx * 0x100 + v.toNat := by
  rw [encode_writeOp, assembleWord_toNat, BitVec.toNat_ofNat idx, Nat.mod_eq_of_lt h]
  rfl

/-- Settles O5: the numbers are those of the canonical words, which decode to their operations. -/
theorem traceNumbersDecode : Obligations.TraceNumbersDecode := by
  intro i v hi
  refine ⟨?_, encode_readOp_toNat hi, ?_, encode_writeOp_toNat hi v⟩
  · rw [← encode_readOp_toNat hi, decodeTableWord_toNat, decodeWord_encode_readOp hi]
  · rw [← encode_writeOp_toNat hi v, decodeTableWord_toNat, decodeWord_encode_writeOp hi]

/-- Settles O6: twelve fixed words. -/
theorem sampleWordsDecode : Obligations.SampleWordsDecode := by
  refine ⟨?_, ?_, ?_, ?_, ?_, ?_, ?_, ?_, ?_, ?_, ?_, ?_⟩ <;> decide

end Sys2Proof
end

section
/-! PROOFS. Everything an operation does, as one update of the state: every operation completes (spec/60_exceptions.md
R110), so it has a next state, and each field of that state is a function of the few fields it is made from. -/

namespace Sys2Proof.Machine

-- ## The next state of an operation and of a run

/-- The state an operation answers with. -/
def execState (i : Instr) (s : State) : State := (nextState? (exec i s)).getD s

theorem exec_eq_next (i : Instr) (s : State) : exec i s = .next (execState i s) := by
  obtain ⟨t, h⟩ := exec_completes i s
  simp [execState, h, nextState?]

theorem exec_eq_next_iff {i : Instr} {s t : State} : exec i s = .next t ↔ t = execState i s := by
  rw [exec_eq_next, Host.Outcome.next.injEq, eq_comm]

/-- The state a run of operations ends in. -/
def runState (ops : List Instr) (s : State) : State := ops.foldl (fun u i => execState i u) s

@[simp] theorem runState_nil (s : State) : runState [] s = s := rfl

@[simp] theorem runState_cons (i : Instr) (ops : List Instr) (s : State) :
    runState (i :: ops) s = runState ops (execState i s) := rfl

theorem runState_append (ops more : List Instr) (s : State) :
    runState (ops ++ more) s = runState more (runState ops s) :=
  List.foldl_append

theorem runOps_eq_next (ops : List Instr) (s : State) : runOps ops s = .next (runState ops s) := by
  induction ops generalizing s with
  | nil => rfl
  | cons i ops ih => rw [runOps_cons (exec_eq_next i s), ih, runState_cons]

/-- What holds at the start of a run and is kept by each of its operations holds at its end. -/
theorem runState_induction {P : State → Prop} {ops : List Instr}
    (hkeep : ∀ i ∈ ops, ∀ u, P u → P (execState i u)) {s : State} (hs : P s) : P (runState ops s) := by
  induction ops generalizing s with
  | nil => exact hs
  | cons i ops ih =>
    rw [List.forall_mem_cons] at hkeep
    exact ih hkeep.2 (hkeep.1 s hs)

-- ## What an operation makes of each field

/-- The outbound countdown after an operation (R10, R12). -/
def txCntAfter (i : Instr) (q : Quantum) (d : Divisor) (c : Nat) : Nat :=
  match i with
  | .step => dec q c
  | .wrData _ => if 0 < c then c else arm q d
  | .reset => 0
  | _ => c

/-- The inbound countdown after an operation (R10, R13). -/
def rxCntAfter (i : Instr) (q : Quantum) (d : Divisor) (c : Nat) : Nat :=
  match i with
  | .step => dec q c
  | .rdData => arm q d
  | .reset => 0
  | _ => c

/-- The operation makes a fetch attempt: a `STEP` at an inbound expiry, and `RESET` (R74, R130). -/
def fetches (i : Instr) (q : Quantum) (rx : Nat) : Bool :=
  match i with
  | .step => expired q rx
  | .reset => true
  | _ => false

/-- The cached byte after an operation; a fetch attempt gives `sample`, and `draw` is what a `RESET` without a byte
draws (R14, R81, R130). -/
def rxByteAfter (i : Instr) (q : Quantum) (rx : Nat) (sample : Option Byte) (draw b : Byte) : Byte :=
  match i with
  | .step => if expired q rx then sample.getD b else b
  | .reset => sample.getD draw
  | _ => b

/-- The sink's log after an operation (R84, R100). -/
def sinkAfter (i : Instr) (tx : Nat) (bound : Bool) (sent : List Byte) : List Byte :=
  match i with
  | .wrData b => if tx = 0 ∧ bound = true then sent ++ [b] else sent
  | _ => sent

/-- The diagnostic log after an operation (R85, R100). -/
def diagAfter (i : Instr) (tx : Nat) (dropped : List Byte) : List Byte :=
  match i with
  | .wrData b => if 0 < tx then dropped ++ [b] else dropped
  | _ => dropped

/-- The counter of the draws after an operation; `avail` is `src_avail` (D9, log entry 6). -/
def drawsAfter (i : Instr) (avail : Bool) (n : Nat) : Nat :=
  match i with
  | .reset => if avail then n else n + 1
  | _ => n

/-- The output record of an operation (R60). -/
def outputOf (i : Instr) (s : State) : Output :=
  match i with
  | .step | .reset => { srcTake := fetches i s.quantum s.rxCnt && s.srcAvail }
  | .rdData => { rdata := some s.rxByte }
  | .rdStatus => { rdata := some (statusByte s) }
  | .rdDivlo => { rdata := some (divLo s.div) }
  | .rdDivhi => { rdata := some (divHi s.div) }
  | .rdUnmapped _ => { rdata := some 0x00#8 }
  | .wrData b => if 0 < s.txCnt then { diag := some b } else { sink := some b }
  | .wrStatus _ | .wrDivlo _ | .wrDivhi _ | .wrUnmapped _ _ => {}

/-- A `Refill` in the words of the source's answer. -/
theorem refill_eq_of_sample (s : State) : s.refill = { s with
    rxByte := s.tryGetNextByte.getD s.rxByte
    srcPending := if s.srcAvail then s.srcPending.tail else s.srcPending } := by
  rw [srcAvail_eq_isSome, State.refill]
  cases s.tryGetNextByte <;> rfl

/-- The prime in the words of the source's answer. -/
theorem prime_eq_of_sample (s : State) : s.prime = { s with
    rxByte := s.tryGetNextByte.getD (Config.rxInit s.draws)
    srcPending := if s.srcAvail then s.srcPending.tail else s.srcPending
    draws := if s.srcAvail then s.draws else s.draws + 1 } := by
  rw [srcAvail_eq_isSome, State.prime]
  cases s.tryGetNextByte <;> rfl

/-- Everything an operation does. -/
theorem execState_eq (i : Instr) (s : State) : execState i s = { s with
    div := divAfter i s.div
    txCnt := txCntAfter i s.quantum s.div s.txCnt
    rxCnt := rxCntAfter i s.quantum s.div s.rxCnt
    rxByte := rxByteAfter i s.quantum s.rxCnt s.tryGetNextByte (Config.rxInit s.draws) s.rxByte
    srcPending := if fetches i s.quantum s.rxCnt && s.srcAvail then s.srcPending.tail else s.srcPending
    sink := sinkAfter i s.txCnt s.sinkBound s.sink
    diag := diagAfter i s.txCnt s.diag
    draws := drawsAfter i s.srcAvail s.draws
    out := outputOf i s } := by
  refine (exec_eq_next_iff.mp ?_).symm
  cases i with
  | step =>
    rw [exec_step_eq, refill_eq_of_sample]
    cases h : expired s.quantum s.rxCnt <;> simp only [fetches, rxByteAfter, outputOf, h] <;> rfl
  | rdData | rdStatus | rdDivlo | rdDivhi | rdUnmapped | wrStatus | wrDivlo | wrDivhi | wrUnmapped => rfl
  | wrData b =>
    cases hbusy : s.txBusy with
    | true =>
      have hpos := (txBusy_iff s).mp hbusy
      rw [exec_wrData_busy b hbusy]
      simp only [txCntAfter, sinkAfter, diagAfter, outputOf, hpos, hpos.ne', if_true, if_false, false_and]
      rfl
    | false =>
      have hzero := (txBusy_eq_false_iff s).mp hbusy
      rw [exec_wrData_idle b hbusy]
      simp only [txCntAfter, sinkAfter, diagAfter, outputOf, hzero, Nat.lt_irrefl, if_false, true_and]
      rfl
  | reset =>
    rw [exec_reset_eq, prime_eq_of_sample]
    rfl

section Fields
variable (i : Instr) (s : State)

@[simp] theorem execState_div : (execState i s).div = divAfter i s.div := by rw [execState_eq]
@[simp] theorem execState_txCnt : (execState i s).txCnt = txCntAfter i s.quantum s.div s.txCnt := by rw [execState_eq]
@[simp] theorem execState_rxCnt : (execState i s).rxCnt = rxCntAfter i s.quantum s.div s.rxCnt := by rw [execState_eq]
@[simp] theorem execState_rxByte : (execState i s).rxByte =
    rxByteAfter i s.quantum s.rxCnt s.tryGetNextByte (Config.rxInit s.draws) s.rxByte := by rw [execState_eq]
@[simp] theorem execState_quantum : (execState i s).quantum = s.quantum := by rw [execState_eq]
@[simp] theorem execState_srcPending : (execState i s).srcPending =
    if fetches i s.quantum s.rxCnt && s.srcAvail then s.srcPending.tail else s.srcPending := by rw [execState_eq]
@[simp] theorem execState_srcHasMore : (execState i s).srcHasMore = s.srcHasMore := by rw [execState_eq]
@[simp] theorem execState_srcCanProbe : (execState i s).srcCanProbe = s.srcCanProbe := by rw [execState_eq]
@[simp] theorem execState_sinkBound : (execState i s).sinkBound = s.sinkBound := by rw [execState_eq]
@[simp] theorem execState_sink : (execState i s).sink = sinkAfter i s.txCnt s.sinkBound s.sink := by rw [execState_eq]
@[simp] theorem execState_diag : (execState i s).diag = diagAfter i s.txCnt s.diag := by rw [execState_eq]
@[simp] theorem execState_out : (execState i s).out = outputOf i s := by rw [execState_eq]
@[simp] theorem execState_schedule : (execState i s).schedule = s.schedule := by rw [execState_eq]
@[simp] theorem execState_draws : (execState i s).draws = drawsAfter i s.srcAvail s.draws := by rw [execState_eq]

end Fields

/-- What `STEP` does (R72). -/
theorem execState_step (s : State) : execState .step s = { s with
    txCnt := dec s.quantum s.txCnt
    rxCnt := dec s.quantum s.rxCnt
    rxByte := if expired s.quantum s.rxCnt then s.tryGetNextByte.getD s.rxByte else s.rxByte
    srcPending := if expired s.quantum s.rxCnt && s.srcAvail then s.srcPending.tail else s.srcPending
    out := { srcTake := expired s.quantum s.rxCnt && s.srcAvail } } := execState_eq .step s

/-- What `RESET` does (R130). -/
theorem execState_reset (s : State) : execState .reset s = { s with
    div := divReset
    txCnt := 0
    rxCnt := 0
    rxByte := s.tryGetNextByte.getD (Config.rxInit s.draws)
    srcPending := if s.srcAvail then s.srcPending.tail else s.srcPending
    draws := if s.srcAvail then s.draws else s.draws + 1
    out := { srcTake := s.srcAvail } } := execState_eq .reset s

/-- No operation changes what `sameInstance` speaks of (R4). -/
theorem execState_sameInstance (i : Instr) (s : State) : sameInstance s (execState i s) := by
  rw [execState_eq]
  exact ⟨rfl, rfl, rfl, rfl, rfl⟩

theorem runState_quantum (ops : List Instr) (s : State) : (runState ops s).quantum = s.quantum :=
  runState_induction (P := fun u => u.quantum = s.quantum) (fun i _ u hu => (execState_quantum i u).trans hu) rfl

end Sys2Proof.Machine
end

section
/-! PROOFS. The step (spec/20_memory.md R38; log entries 1 to 3): an operation does not see the schedule, so the steps
of a schedule are its operations. -/

namespace Sys2Proof.Machine

/-- Settles O7. -/
theorem stepRunsThePresentedOperation : Obligations.StepRunsThePresentedOperation := fun _ _ _ h =>
  step_of_schedule_cons h

/-- Settles O8. -/
theorem stepWithoutOperationIsQuiet : Obligations.StepWithoutOperationIsQuiet := fun _ h => step_of_schedule_nil h

/-- An operation presented with no arrival and the answer `has_more()` gives now finds the state as it was. -/
theorem present_unmoved (s : State) (w : OpWord) (rest : List Presented) :
    s.present ⟨w, [], s.srcHasMore⟩ rest = s.setSchedule rest := by
  simp [State.present, State.srcEvent]

/-- A step on a schedule whose first operation comes with no move of the source. -/
theorem step_setSchedule_cons (s : State) (w : OpWord) (rest : List Presented) :
    step (s.setSchedule (⟨w, [], s.srcHasMore⟩ :: rest)) = exec (decodeWord w) (s.setSchedule rest) := by
  rw [step_of_schedule_cons (State.setSchedule_schedule s _)]
  exact congrArg _ (present_unmoved (s.setSchedule _) w rest)

/-- Settles O9: the placed word is the head of the schedule, and the step restores the rest. -/
theorem placedWordRunsNext : Obligations.PlacedWordRunsNext := by
  intro s nbits w hbits hw
  refine ⟨_, decodeTableWord_of_lt hbits hw, ?_⟩
  have hmod : w % 2 ^ nbits = w := Nat.mod_eq_of_lt (hw.trans_le (Nat.pow_le_pow_right (by decide) hbits))
  rw [State.withFetchWord, hmod, step_setSchedule_cons]
  rfl

/-- An operation does not see the schedule. -/
theorem execState_setSchedule (i : Instr) (s : State) (ps : List Presented) :
    execState i (s.setSchedule ps) = (execState i s).setSchedule ps := by
  rw [execState_eq, execState_eq]
  rfl

/-- Settles O10, by induction over the words. -/
theorem stepsRunTheScheduleInOrder : Obligations.StepsRunTheScheduleInOrder := by
  intro ws
  induction ws with
  | nil => exact fun _ => rfl
  | cons w ws ih =>
    intro s
    have hstep : step (s.setSchedule ((w :: ws).map fun w => ⟨w, [], s.srcHasMore⟩)) =
        .next ((execState (decodeWord w) s).setSchedule (ws.map fun w => ⟨w, [], s.srcHasMore⟩)) := by
      rw [List.map_cons, step_setSchedule_cons, exec_eq_next, execState_setSchedule]
    calc runSteps (ws.length + 1) (s.setSchedule ((w :: ws).map fun w => ⟨w, [], s.srcHasMore⟩))
      _ = runSteps ws.length
          ((execState (decodeWord w) s).setSchedule (ws.map fun w => ⟨w, [], s.srcHasMore⟩)) := by
        rw [runSteps, hstep]
      _ = runOps (ws.map decodeWord) ((execState (decodeWord w) s).setSchedule []) := by
        rw [← execState_srcHasMore (decodeWord w) s]
        exact ih _
      _ = runOps ((w :: ws).map decodeWord) (s.setSchedule []) := by
        rw [List.map_cons, runOps_cons (exec_eq_next _ _), execState_setSchedule]

end Sys2Proof.Machine
end

section
/-! PROOFS. The result of each operation (spec/40_timing_engine.md R71, R72, R79; spec/42_register_reads.md R90, R91;
spec/43_register_writes.md R100, R102, R103; spec/70_reset_and_hazards.md R130, R131). -/

namespace Sys2Proof.Machine

-- ## The source's answer

/-- A fetch attempt in the words of the waiting bytes. -/
theorem tryGetNextByte_getD (s : State) (b : Byte) :
    s.tryGetNextByte.getD b = if s.srcAvail = true then s.srcPending.headD b else b := by
  cases h : s.tryGetNextByte with
  | none => simp [tryGetNextByte_eq_none h]
  | some c =>
    obtain ⟨havail, hpending⟩ := tryGetNextByte_eq_some h
    rw [havail, hpending]
    rfl

/-- Settles O15: the source answers with the head of its bytes, if it is readable. -/
theorem sourceSignalsAgree : Obligations.SourceSignalsAgree := by
  refine fun s => ⟨?_, ?_, fun b h => ?_⟩
  · simp [State.srcAvail, State.isExhausted, State.readable]
  · rw [srcAvail_eq_isSome, Option.isSome_eq_false_iff, Option.isNone_iff_eq_none]
  · rw [(tryGetNextByte_eq_some h).2]
    rfl

-- ## The timing engine

/-- Settles O31, on both sides of `c = QN`. -/
theorem countdownSaturatesAndExpiresOnce : Obligations.CountdownSaturatesAndExpiresOnce := by
  intro q c hq
  obtain ⟨hqn, -⟩ := (Quantum_wf_iff q).mp hq
  simp only [dec_eq_sub, ← Bool.not_eq_true, expired_iff]
  omega

/-- Settles O12: the words of kind 0 are `STEP`, and the next state is field by field what R72 says. -/
theorem stepLowersAndRefills : Obligations.StepLowersAndRefills := by
  refine ⟨fun w h => decodeWord_of_kind_zero h, fun s => ?_⟩
  rw [exec_eq_next, execState_step]
  by_cases hexp : 0 < s.rxCnt ∧ s.rxCnt ≤ s.quantum.qn
  · simp [dec, (expired_iff _ _).mpr hexp, hexp, tryGetNextByte_getD]
  · have hnot : expired s.quantum s.rxCnt = false := by rwa [← Bool.not_eq_true, expired_iff]
    simp [dec, hnot, hexp]

/-- Settles O33: a countdown at 0 stays there and does not expire. -/
theorem stepAtRestIsIdentity : Obligations.StepAtRestIsIdentity := by
  intro s htx hrx
  rw [exec_step_eq, hrx, expired_zero, Bool.false_and]
  simp [State.lowerCountdowns, State.setTxCnt, State.setRxCnt, State.emit, dec, htx, hrx]

theorem arm_eq_zero_iff {q : Quantum} (hq : q.wf = true) (d : Divisor) : arm q d = 0 ↔ d = 0#16 := by
  obtain ⟨-, hqd⟩ := (Quantum_wf_iff q).mp hq
  rw [arm_eq, Nat.mul_eq_zero, Nat.mul_eq_zero, or_iff_left hqd.ne', or_iff_left (by decide), BitVec.toNat_eq]
  rfl

-- ## The reads

/-- Settles O13. -/
theorem readDataReturnsCacheAndArms : Obligations.ReadDataReturnsCacheAndArms := by
  refine ⟨exec_rdData_eq, fun s hq =>
    ⟨_, exec_rdData_eq s, fun hd => (arm_eq_zero_iff hq _).mpr hd, fun hd => ?_⟩⟩
  exact rxReady_eq_false_of_pos (Nat.pos_of_ne_zero (mt (arm_eq_zero_iff hq _).mp hd))

/-- Settles O14. -/
theorem readStatusReturnsFlags : Obligations.ReadStatusReturnsFlags := by
  intro s
  obtain ⟨hbusy, hready, hsmall⟩ := statusByte_bits s
  exact ⟨statusByte s, exec_rdStatus_eq s, by rw [hbusy, txBusy_iff], by rw [hready, rxReady_iff], hsmall⟩

-- ## The writes

/-- Settles O18. -/
theorem writeDataSendsOrDrops : Obligations.WriteDataSendsOrDrops := fun s b =>
  ⟨fun h => exec_wrData_busy b ((txBusy_iff s).mpr h), fun h => exec_wrData_idle b ((txBusy_eq_false_iff s).mpr h)⟩

/-- A `RD_DATA` arms with the divisor as the operation before it leaves it. -/
theorem runState_then_rdData_rxCnt (i : Instr) (s : State) :
    (runState [i, .rdData] s).rxCnt = arm s.quantum (divAfter i s.div) := by
  rw [runState_cons, runState_cons, runState_nil, execState_rxCnt, execState_div, execState_quantum]
  rfl

/-- An accepted `WR_DATA` arms with the divisor as the operation before it leaves it. -/
theorem runState_then_wrData_txCnt {i : Instr} {s : State} (hkeep : (execState i s).txCnt = s.txCnt)
    (hidle : s.txCnt = 0) (b : Byte) :
    (runState [i, .wrData b] s).txCnt = arm s.quantum (divAfter i s.div) := by
  rw [runState_cons, runState_cons, runState_nil, execState_txCnt, hkeep, hidle, execState_div, execState_quantum]
  rfl

/-- Settles O20: `WR_DIVLO` gives the divisor its low half and leaves the outbound countdown to the arming. -/
theorem writeDivloReplacesLowHalf : Obligations.WriteDivloReplacesLowHalf :=
  ⟨fun s b => exec_wrDivlo_eq b s, fun b => decodeWord_assembleWord_write 2#8 b,
    fun s _ => ⟨_, runOps_eq_next _ _, runState_then_rdData_rxCnt _ s⟩, fun _ _ c hidle =>
    ⟨_, runOps_eq_next _ _, runState_then_wrData_txCnt (execState_txCnt _ _) hidle c⟩⟩

theorem replaceHi_replaceLo (d : Divisor) (hi lo : Byte) : replaceHi (replaceLo d lo) hi = hi ++ lo :=
  congrArg (hi ++ ·) (divLo_replaceLo d lo)

theorem replaceLo_replaceHi (d : Divisor) (hi lo : Byte) : replaceLo (replaceHi d hi) lo = hi ++ lo :=
  congrArg (· ++ lo) (divHi_replaceHi d hi)

/-- The two writes of a divisor, low half first. -/
theorem runOps_wrDivlo_wrDivhi (s : State) (hi lo : Byte) :
    runOps [.wrDivlo lo, .wrDivhi hi] s = .next { s with div := hi ++ lo, out := {} } := by
  rw [runOps_cons (exec_wrDivlo_eq lo s), runOps_cons (exec_wrDivhi_eq hi _), runOps_nil, State.emit_div,
    State.setDiv_div, replaceHi_replaceLo]
  rfl

/-- The two writes of a divisor, high half first. -/
theorem runOps_wrDivhi_wrDivlo (s : State) (hi lo : Byte) :
    runOps [.wrDivhi hi, .wrDivlo lo] s = .next { s with div := hi ++ lo, out := {} } := by
  rw [runOps_cons (exec_wrDivhi_eq hi s), runOps_cons (exec_wrDivlo_eq lo _), runOps_nil, State.emit_div,
    State.setDiv_div, replaceLo_replaceHi]
  rfl

/-- Settles O21: `WR_DIVHI` gives the divisor its high half, and the halves do not overlap. -/
theorem writeDivhiReplacesHighHalf : Obligations.WriteDivhiReplacesHighHalf :=
  ⟨fun s b => exec_wrDivhi_eq b s, fun b => decodeWord_assembleWord_write 3#8 b,
    fun s _ => ⟨_, runOps_eq_next _ _, runState_then_rdData_rxCnt _ s⟩,
    fun _ _ c hidle => ⟨_, runOps_eq_next _ _, runState_then_wrData_txCnt (execState_txCnt _ _) hidle c⟩,
    fun s lo hi => ⟨runOps_wrDivlo_wrDivhi s hi lo, runOps_wrDivhi_wrDivlo s hi lo⟩⟩

-- ## `RESET`

/-- Settles O23, with a byte at the source and without. -/
theorem resetInitialisesAndPrimes : Obligations.ResetInitialisesAndPrimes := by
  refine fun s => ⟨fun havail => ?_, fun hnone => ?_⟩
  · obtain ⟨b, bs, hpending⟩ := srcPending_of_srcAvail havail
    rw [exec_eq_next, execState_reset, tryGetNextByte_getD, havail, hpending]
    rfl
  · rw [exec_eq_next, execState_reset, tryGetNextByte_getD, hnone]
    rfl

/-- Settles O24: both countdowns are 0 after a `RESET`. -/
theorem resetLeavesTheBlockReady : Obligations.ResetLeavesTheBlockReady := by
  refine ⟨⟨rfl, rfl, rfl⟩, fun s => ⟨_, exec_eq_next _ _, ?_⟩⟩
  have hidle : (execState .reset s).txBusy = false := (txBusy_eq_false_iff _).mpr (execState_txCnt _ _)
  have hrx : (execState .reset s).rxCnt = 0 := execState_rxCnt _ _
  exact ⟨hidle, by rw [State.rxReady, hrx]; rfl, fun b => ⟨_, exec_wrData_idle b hidle, rfl⟩⟩

end Sys2Proof.Machine
end

section
/-! PROOFS. Which operation writes which field (spec/10_state.md R10), reaches which port (spec/20_memory.md R30) and
puts out what (spec/30_encoding.md R60). -/

namespace Sys2Proof.Machine

-- ## The writers of each field

theorem divAfter_ne {i : Instr} {d : Divisor} (h : divAfter i d ≠ d) :
    i.opName = .wrDivlo ∨ i.opName = .wrDivhi ∨ i = .reset := by
  cases i with
  | wrDivlo => exact .inl rfl
  | wrDivhi => exact .inr (.inl rfl)
  | reset => exact .inr (.inr rfl)
  | step | rdData | rdStatus | rdDivlo | rdDivhi | rdUnmapped | wrData | wrStatus | wrUnmapped => exact absurd rfl h

theorem txCntAfter_ne {i : Instr} {q : Quantum} {d : Divisor} {c : Nat} (h : txCntAfter i q d c ≠ c) :
    (∃ b, i = .wrData b ∧ c = 0) ∨ i = .step ∨ i = .reset := by
  cases i with
  | wrData b => exact .inl ⟨b, rfl, Nat.eq_zero_of_not_pos fun hpos => h (if_pos hpos)⟩
  | step => exact .inr (.inl rfl)
  | reset => exact .inr (.inr rfl)
  | rdData | rdStatus | rdDivlo | rdDivhi | rdUnmapped | wrStatus | wrDivlo | wrDivhi | wrUnmapped => exact absurd rfl h

theorem rxCntAfter_ne {i : Instr} {q : Quantum} {d : Divisor} {c : Nat} (h : rxCntAfter i q d c ≠ c) :
    i = .rdData ∨ i = .step ∨ i = .reset := by
  cases i with
  | rdData => exact .inl rfl
  | step => exact .inr (.inl rfl)
  | reset => exact .inr (.inr rfl)
  | rdStatus | rdDivlo | rdDivhi | rdUnmapped | wrData | wrStatus | wrDivlo | wrDivhi | wrUnmapped => exact absurd rfl h

theorem fetches_iff {i : Instr} {q : Quantum} {rx : Nat} :
    fetches i q rx = true ↔ (i = .step ∧ 0 < rx ∧ rx ≤ q.qn) ∨ i = .reset := by
  cases i <;> simp [fetches, expired_iff]

theorem rxByteAfter_ne {i : Instr} {q : Quantum} {rx : Nat} {sample : Option Byte} {draw b : Byte}
    (h : rxByteAfter i q rx sample draw b ≠ b) :
    (i = .step ∧ expired q rx = true ∧ sample.isSome = true) ∨ i = .reset := by
  cases i with
  | step =>
    cases hexp : expired q rx with
    | false => simp [rxByteAfter, hexp] at h
    | true =>
      cases sample with
      | none => simp [rxByteAfter] at h
      | some c => exact .inl ⟨rfl, rfl, rfl⟩
  | reset => exact .inr rfl
  | rdData | rdStatus | rdDivlo | rdDivhi | rdUnmapped | wrData | wrStatus | wrDivlo | wrDivhi | wrUnmapped =>
    exact absurd rfl h

/-- Without a fetch attempt the cache keeps its byte. -/
theorem rxByteAfter_of_not_fetches {i : Instr} {q : Quantum} {rx : Nat} (h : fetches i q rx = false)
    (sample : Option Byte) (draw b : Byte) : rxByteAfter i q rx sample draw b = b := by
  by_contra hne
  obtain ⟨rfl, hexp, -⟩ | rfl := rxByteAfter_ne hne
  · exact Bool.noConfusion (hexp.symm.trans h)
  · exact Bool.noConfusion h

theorem sinkAfter_ne {i : Instr} {tx : Nat} {bound : Bool} {sent : List Byte} (h : sinkAfter i tx bound sent ≠ sent) :
    ∃ b, i = .wrData b ∧ tx = 0 ∧ sinkAfter i tx bound sent = sent ++ [b] := by
  cases i with
  | wrData b =>
    by_cases hidle : tx = 0 ∧ bound = true
    · exact ⟨b, rfl, hidle.1, if_pos hidle⟩
    · exact absurd (if_neg hidle) h
  | step | rdData | rdStatus | rdDivlo | rdDivhi | rdUnmapped | wrStatus | wrDivlo | wrDivhi | wrUnmapped | reset =>
    exact absurd rfl h

theorem diagAfter_ne {i : Instr} {tx : Nat} {dropped : List Byte} (h : diagAfter i tx dropped ≠ dropped) :
    ∃ b, i = .wrData b ∧ 0 < tx ∧ diagAfter i tx dropped = dropped ++ [b] := by
  cases i with
  | wrData b =>
    by_cases hbusy : 0 < tx
    · exact ⟨b, rfl, hbusy, if_pos hbusy⟩
    · exact absurd (if_neg hbusy) h
  | step | rdData | rdStatus | rdDivlo | rdDivhi | rdUnmapped | wrStatus | wrDivlo | wrDivhi | wrUnmapped | reset =>
    exact absurd rfl h

-- ## A fetched byte

/-- A fetch attempt takes the next waiting byte into the cache, if the source is ready. -/
theorem srcPending_of_fetches {i : Instr} {s : State} (hfetch : fetches i s.quantum s.rxCnt = true)
    (havail : s.srcAvail = true) : s.srcPending = (execState i s).rxByte :: (execState i s).srcPending := by
  obtain ⟨b, bs, hpending⟩ := srcPending_of_srcAvail havail
  have hbyte : rxByteAfter i s.quantum s.rxCnt s.tryGetNextByte (Config.rxInit s.draws) s.rxByte = b := by
    obtain ⟨rfl, hexp⟩ | rfl := fetches_iff.mp hfetch
    · simp [rxByteAfter, (expired_iff _ _).mpr hexp, tryGetNextByte_getD, havail, hpending]
    · simp [rxByteAfter, tryGetNextByte_getD, havail, hpending]
  rw [execState_rxByte, hbyte, execState_srcPending, hfetch, havail, hpending]
  rfl

/-- Without a fetch attempt no byte is taken. -/
theorem execState_srcPending_of_not_fetches {i : Instr} {s : State} (h : fetches i s.quantum s.rxCnt = false) :
    (execState i s).srcPending = s.srcPending := by
  simp [h]

theorem execState_srcPending_of_not_srcAvail (i : Instr) {s : State} (h : s.srcAvail = false) :
    (execState i s).srcPending = s.srcPending := by
  simp [h]

/-- A byte leaves the source exactly at a fetch attempt that finds it ready. -/
theorem execState_srcPending_ne_iff {i : Instr} {s : State} :
    (execState i s).srcPending ≠ s.srcPending ↔ fetches i s.quantum s.rxCnt = true ∧ s.srcAvail = true := by
  constructor
  · intro h
    exact ⟨by_contra fun hf => h (execState_srcPending_of_not_fetches (Bool.eq_false_iff.mpr hf)),
      by_contra fun ha => h (execState_srcPending_of_not_srcAvail i (Bool.eq_false_iff.mpr ha))⟩
  · rintro ⟨hfetch, havail⟩ heq
    have htaken := srcPending_of_fetches hfetch havail
    rw [heq] at htaken
    exact List.cons_ne_self _ _ htaken.symm

/-- A countdown expires at the `STEP` that brings it from above 0 to 0. -/
theorem expired_iff_dec_eq_zero (q : Quantum) (c : Nat) : expired q c = true ↔ 0 < c ∧ dec q c = 0 := by
  rw [expired_iff, dec_eq_sub, Nat.sub_eq_zero_iff_le]

theorem dec_of_expired {q : Quantum} {c : Nat} (h : expired q c = true) : dec q c = 0 :=
  ((expired_iff_dec_eq_zero q c).mp h).2

/-- Settles O27, element by element. -/
theorem elementsHaveTheirWritersOnly : Obligations.ElementsHaveTheirWritersOnly := by
  intro i s t h
  obtain rfl := exec_eq_next_iff.mp h
  simp only [execState_div, execState_txCnt, execState_rxCnt, execState_rxByte, execState_out]
  refine ⟨divAfter_ne, fun htx => ?_, rxCntAfter_ne, fun hbyte => ?_⟩
  · obtain ⟨b, rfl, hidle⟩ | hother := txCntAfter_ne htx
    · exact .inl ⟨rfl, by simp [outputOf, hidle]⟩
    · exact .inr hother
  · obtain ⟨rfl, hexp, hsome⟩ | rfl := rxByteAfter_ne hbyte
    · exact .inl ⟨rfl, ((expired_iff _ _).mp hexp).1.ne', dec_of_expired hexp, by
        simp [outputOf, fetches, hexp, srcAvail_eq_isSome, hsome]⟩
    · exact .inr rfl

/-- Settles O28, port by port. -/
theorem portsAreReachedOnlySo : Obligations.PortsAreReachedOnlySo := by
  intro i s t h
  obtain rfl := exec_eq_next_iff.mp h
  refine ⟨fun hsrc => ?_, fun hsink => ?_, fun hdiag => ?_⟩
  · obtain ⟨hfetch, havail⟩ := execState_srcPending_ne_iff.mp hsrc
    refine ⟨(fetches_iff.mp hfetch).imp_left ?_, srcPending_of_fetches hfetch havail⟩
    rintro ⟨rfl, hexp⟩
    exact ⟨rfl, hexp.1, (execState_rxCnt _ _).trans (dec_of_expired ((expired_iff _ _).mpr hexp))⟩
  · rw [execState_sink] at hsink ⊢
    exact sinkAfter_ne hsink
  · rw [execState_diag] at hdiag ⊢
    exact diagAfter_ne hdiag

/-- Settles O29: an operation changes none of them, and the environment's move before a step changes other fields. -/
theorem instanceConstantsNeverChange : Obligations.InstanceConstantsNeverChange := by
  refine ⟨fun i s t h => exec_eq_next_iff.mp h ▸ execState_sameInstance i s, fun s t h => ?_⟩
  cases hsched : s.schedule with
  | nil =>
    rw [step_of_schedule_nil hsched, Host.Outcome.next.injEq] at h
    exact h ▸ ⟨rfl, rfl, rfl⟩
  | cons p rest =>
    rw [step_of_schedule_cons hsched] at h
    obtain rfl := exec_eq_next_iff.mp h
    exact ⟨execState_quantum _ _, execState_sinkBound _ _, execState_srcCanProbe _ _⟩

-- ## The output record

theorem outputOf_rdata_isSome (i : Instr) (s : State) : (outputOf i s).rdata.isSome = i.isRead := by
  cases i with
  | wrData b =>
    rw [outputOf]
    split <;> rfl
  | step | rdData | rdStatus | rdDivlo | rdDivhi | rdUnmapped | wrStatus | wrDivlo | wrDivhi | wrUnmapped | reset => rfl

theorem outputOf_srcTake (i : Instr) (s : State) :
    (outputOf i s).srcTake = (fetches i s.quantum s.rxCnt && s.srcAvail) := by
  cases i with
  | wrData b =>
    rw [outputOf]
    split <;> rfl
  | step | rdData | rdStatus | rdDivlo | rdDivhi | rdUnmapped | wrStatus | wrDivlo | wrDivhi | wrUnmapped | reset => rfl

theorem outputOf_sink_eq_some_iff {i : Instr} {s : State} {b : Byte} :
    (outputOf i s).sink = some b ↔ i = .wrData b ∧ s.txCnt = 0 := by
  cases i with
  | wrData c => by_cases hbusy : 0 < s.txCnt <;> simp [outputOf, hbusy] <;> omega
  | step | rdData | rdStatus | rdDivlo | rdDivhi | rdUnmapped | wrStatus | wrDivlo | wrDivhi | wrUnmapped | reset =>
    simp [outputOf]

theorem outputOf_diag_eq_some_iff {i : Instr} {s : State} {b : Byte} :
    (outputOf i s).diag = some b ↔ i = .wrData b ∧ 0 < s.txCnt := by
  cases i with
  | wrData c => by_cases hbusy : 0 < s.txCnt <;> simp [outputOf, hbusy]
  | step | rdData | rdStatus | rdDivlo | rdDivhi | rdUnmapped | wrStatus | wrDivlo | wrDivhi | wrUnmapped | reset =>
    simp [outputOf]

/-- Every output record is one that R60 allows. -/
theorem outputOf_coherent (i : Instr) (s : State) : (outputOf i s).coherent := by
  cases i with
  | wrData b => by_cases hbusy : 0 < s.txCnt <;> simp [outputOf, Output.coherent, hbusy]
  | step | rdData | rdStatus | rdDivlo | rdDivhi | rdUnmapped | wrStatus | wrDivlo | wrDivhi | wrUnmapped | reset =>
    simp [outputOf, Output.coherent]

/-- Settles O30, pulse by pulse. -/
theorem outputRecordIsAsR60Says : Obligations.OutputRecordIsAsR60Says := by
  refine ⟨fun i s t h => ?_, fun o => ⟨rfl, rfl, rfl, rfl, rfl⟩, fun s h =>
    ⟨_, step_of_schedule_nil h, rfl, rfl, rfl⟩⟩
  obtain rfl := exec_eq_next_iff.mp h
  simp only [execState_out, outputOf_srcTake, Bool.and_eq_true, txBusy_iff, txBusy_eq_false_iff]
  refine ⟨outputOf_rdata_isSome i s, fun ⟨hfetch, _⟩ => ?_, execState_srcPending_ne_iff.symm,
    fun b => outputOf_sink_eq_some_iff, fun b => outputOf_diag_eq_some_iff, (outputOf_coherent i s).1⟩
  exact (fetches_iff.mp hfetch).imp_left And.left

-- ## The invariant

theorem countdownForm_txCntAfter {q : Quantum} {c : Nat} (h : countdownForm q c) (i : Instr) (d : Divisor) :
    countdownForm q (txCntAfter i q d c) := by
  cases i with
  | step => exact countdownForm_dec h
  | wrData b =>
    rw [txCntAfter]
    split
    · exact h
    · exact countdownForm_arm q d
  | reset => exact countdownForm_zero q
  | rdData | rdStatus | rdDivlo | rdDivhi | rdUnmapped | wrStatus | wrDivlo | wrDivhi | wrUnmapped => exact h

theorem countdownForm_rxCntAfter {q : Quantum} {c : Nat} (h : countdownForm q c) (i : Instr) (d : Divisor) :
    countdownForm q (rxCntAfter i q d c) := by
  cases i with
  | step => exact countdownForm_dec h
  | rdData => exact countdownForm_arm q d
  | reset => exact countdownForm_zero q
  | rdStatus | rdDivlo | rdDivhi | rdUnmapped | wrData | wrStatus | wrDivlo | wrDivhi | wrUnmapped => exact h

/-- Every operation keeps the invariant, each countdown for itself. -/
theorem execState_inv {s : State} (h : s.Inv) (i : Instr) : (execState i s).Inv := by
  obtain ⟨hq, htx, hrx, -⟩ := h
  unfold State.Inv
  rw [execState_quantum, execState_txCnt, execState_rxCnt, execState_out]
  exact ⟨hq, countdownForm_txCntAfter htx i _, countdownForm_rxCntAfter hrx i _, outputOf_coherent i s⟩

/-- The environment's move before an operation touches nothing the invariant speaks of. -/
theorem present_inv {s : State} (h : s.Inv) (p : Presented) (rest : List Presented) : (s.present p rest).Inv := h

theorem idle_inv {s : State} (h : s.Inv) : s.idle.Inv := by
  obtain ⟨hq, htx, hrx, -⟩ := h
  exact ⟨hq, htx, hrx, (by decide : ({} : Output).coherent)⟩

/-- Settles O39: the step is an operation on the presented state, or none. -/
theorem stepKeepsTheInvariant : Obligations.StepKeepsTheInvariant := by
  intro s t hinv h
  cases hsched : s.schedule with
  | nil =>
    rw [step_of_schedule_nil hsched, Host.Outcome.next.injEq] at h
    exact h ▸ idle_inv hinv
  | cons p rest =>
    rw [step_of_schedule_cons hsched] at h
    exact exec_eq_next_iff.mp h ▸ execState_inv (present_inv hinv p rest) _

/-- Settles O40: both successors are positive, and both countdowns 0. -/
theorem resetMeetsTheInvariant : Obligations.ResetMeetsTheInvariant :=
  ⟨(Quantum_wf_iff _).mpr ⟨Nat.succ_pos _, Nat.succ_pos _⟩, countdownForm_zero _, countdownForm_zero _, by
    decide⟩

theorem arm_le_armMax (q : Quantum) (d : Divisor) : arm q d ≤ armMax q :=
  Nat.mul_le_mul_right _ (Nat.mul_le_mul_right _ (Nat.le_pred_of_lt d.isLt))

theorem countdownForm_le_armMax {q : Quantum} {c : Nat} (h : countdownForm q c) : c ≤ armMax q := by
  obtain rfl | ⟨d, k, -, rfl⟩ := h
  · exact Nat.zero_le _
  · exact (Nat.sub_le _ _).trans (arm_le_armMax q d)

/-- Settles O41: a countdown never exceeds the value it was armed with. -/
theorem invariantBoundsTheCountdowns : Obligations.InvariantBoundsTheCountdowns :=
  fun _ ⟨_, htx, hrx, _⟩ => ⟨countdownForm_le_armMax htx, countdownForm_le_armMax hrx⟩

theorem armMax_lt_two_pow_iff {q : Quantum} (hq : q.wf = true) (w : Nat) : armMax q < 2 ^ w ↔ cntWidth q ≤ w := by
  obtain ⟨-, hqd⟩ := (Quantum_wf_iff q).mp hq
  have hne : armMax q ≠ 0 := (Nat.mul_pos (by decide) hqd).ne'
  rw [cntWidth, Nat.add_one_le_iff, Nat.log2_lt hne]

/-- Settles O32: `CNT_W` is one more than the logarithm of the largest arming value. -/
theorem armingValueFitsCntW : Obligations.ArmingValueFitsCntW := by
  refine ⟨fun q d hq => ⟨arm_eq q d, arm_le_armMax q d, arm_eq_zero_iff hq d, ?_⟩,
    fun q w hq => armMax_lt_two_pow_iff hq w, fun qn => ⟨?_, ?_⟩⟩
  · exact (arm_le_armMax q d).trans_lt ((armMax_lt_two_pow_iff hq _).mpr le_rfl)
  · show Nat.log2 589815 + 1 = 20
    decide
  · show Nat.log2 4718520 + 1 = 23
    decide

end Sys2Proof.Machine
end

section
/-! PROOFS. The integer countdowns against the source's real-valued ones (spec/40_timing_engine.md R78): lowering,
arming and expiry commute with `max(0, QD * r)`. -/

namespace Sys2Proof.Machine

theorem countdownMatches_zero (q : Quantum) : countdownMatches q 0 0 := by simp [countdownMatches]

theorem countdownMatches_arm (q : Quantum) (d : Divisor) : countdownMatches q (arm q d) (realArm d) := by
  have hnonneg : (0 : ℚ) ≤ q.qd * realArm d := by unfold realArm; positivity
  rw [countdownMatches, max_eq_right hnonneg, arm, realArm]
  push_cast
  ring

section Matching
variable {q : Quantum} {c : Nat} {r : ℚ} (hq : q.wf = true) (h : countdownMatches q c r)
include hq h

theorem countdownMatches.pos_iff : 0 < c ↔ 0 < r := by
  obtain ⟨-, hqd⟩ := (Quantum_wf_iff q).mp hq
  have hqd : (0 : ℚ) < q.qd := Nat.cast_pos.mpr hqd
  rw [← Nat.cast_pos (α := ℚ), h, lt_max_iff, or_iff_right (lt_irrefl _), mul_pos_iff_of_pos_left hqd]

theorem countdownMatches.eq_zero_iff : c = 0 ↔ r ≤ 0 := by
  rw [← not_lt, ← h.pos_iff hq]
  omega

/-- `max(0, max(0, x) - QN) = max(0, x - QN)`: a countdown may stop at 0 or go on below it. -/
theorem countdownMatches.dec : countdownMatches q (dec q c) (r - realQuantum q) := by
  obtain ⟨-, hqd⟩ := (Quantum_wf_iff q).mp hq
  have hqd : (q.qd : ℚ) ≠ 0 := Nat.cast_ne_zero.mpr hqd.ne'
  have hlowered : (q.qd : ℚ) * (r - realQuantum q) = q.qd * r - q.qn := by
    rw [realQuantum, mul_sub, mul_div_cancel₀ _ hqd]
  have hqn : (0 : ℚ) ≤ q.qn := Nat.cast_nonneg _
  unfold countdownMatches at h ⊢
  rw [dec_eq_sub, hlowered]
  obtain hle | hlt := Nat.le_total c q.qn
  · have hcast : (c : ℚ) ≤ q.qn := Nat.cast_le.mpr hle
    rw [Nat.sub_eq_zero_of_le hle, max_eq_left (by linarith [le_max_right (0 : ℚ) (q.qd * r)]), Nat.cast_zero]
  · have hcast : (q.qn : ℚ) ≤ c := Nat.cast_le.mpr hlt
    rw [Nat.cast_sub hlt]
    obtain hneg | hpos := le_total ((q.qd : ℚ) * r) 0
    · rw [max_eq_left hneg] at h
      rw [max_eq_left (by linarith)]
      linarith
    · rw [max_eq_right hpos] at h
      rw [max_eq_right (by linarith), h]

/-- The integer countdown expires exactly where the real one crosses 0. -/
theorem countdownMatches.expired_eq : expired q c = crosses q r := by
  rw [Bool.eq_iff_iff, expired_iff_dec_eq_zero, h.pos_iff hq, (h.dec hq).eq_zero_iff hq]
  simp [crosses]

end Matching

/-- One operation on both sides keeps them alike and puts the same out. -/
theorem realMatches_execState {s : State} {r : RealBlock} (hq : s.quantum.wf = true) (h : realMatches s r) (i : Instr) :
    realMatches (execState i s) (realExec s.quantum s.tryGetNextByte (Config.rxInit s.draws) i r).1 ∧
      (execState i s).out = (realExec s.quantum s.tryGetNextByte (Config.rxInit s.draws) i r).2 := by
  obtain ⟨hdiv, htx, hrx, hbyte⟩ := h
  have hcross := hrx.expired_eq hq
  rw [execState_eq]
  cases i with
  | step =>
    refine ⟨⟨hdiv, htx.dec hq, hrx.dec hq, ?_⟩, ?_⟩
    · simp only [rxByteAfter, realExec, hcross, hbyte]
    · simp only [outputOf, fetches, realExec, hcross, srcAvail_eq_isSome]
  | rdData => exact ⟨⟨hdiv, htx, hdiv ▸ countdownMatches_arm _ _, hbyte⟩, by rw [outputOf, hbyte]; rfl⟩
  | rdStatus =>
    refine ⟨⟨hdiv, htx, hrx, hbyte⟩, ?_⟩
    simp only [outputOf, realExec, statusByte, State.txBusy, State.rxReady, htx.pos_iff hq, hrx.eq_zero_iff hq,
      srcAvail_eq_isSome]
  | rdDivlo | rdDivhi => exact ⟨⟨hdiv, htx, hrx, hbyte⟩, by rw [outputOf, hdiv]; rfl⟩
  | rdUnmapped | wrStatus | wrUnmapped => exact ⟨⟨hdiv, htx, hrx, hbyte⟩, rfl⟩
  | wrData b =>
    by_cases hbusy : 0 < r.tx
    · have hpos := (htx.pos_iff hq).mpr hbusy
      simp only [realExec, outputOf, txCntAfter, if_pos hbusy, if_pos hpos]
      exact ⟨⟨hdiv, htx, hrx, hbyte⟩, trivial⟩
    · have hzero := mt (htx.pos_iff hq).mp hbusy
      simp only [realExec, outputOf, txCntAfter, if_neg hbusy, if_neg hzero]
      exact ⟨⟨hdiv, hdiv ▸ countdownMatches_arm _ _, hrx, hbyte⟩, trivial⟩
  | wrDivlo b => exact ⟨⟨congrArg (replaceLo · b) hdiv, htx, hrx, hbyte⟩, rfl⟩
  | wrDivhi b => exact ⟨⟨congrArg (replaceHi · b) hdiv, htx, hrx, hbyte⟩, rfl⟩
  | reset =>
    refine ⟨⟨rfl, countdownMatches_zero _, countdownMatches_zero _, rfl⟩, ?_⟩
    simp only [outputOf, fetches, Bool.true_and, realExec, srcAvail_eq_isSome]

/-- `RESET` makes the two sides alike, whatever they were. -/
theorem realMatches_execState_reset (s : State) (r : RealBlock) :
    realMatches (execState .reset s) (realExec s.quantum s.tryGetNextByte (Config.rxInit s.draws) .reset r).1 := by
  rw [execState_reset]
  exact ⟨rfl, countdownMatches_zero _, countdownMatches_zero _, rfl⟩

/-- Settles O37, operation by operation. -/
theorem integerAndRealCountdownsAgree : Obligations.IntegerAndRealCountdownsAgree := by
  refine ⟨fun s t r i hq hmatch h => ?_, fun s t r h => ?_⟩
  · exact exec_eq_next_iff.mp h ▸ realMatches_execState hq hmatch i
  · exact exec_eq_next_iff.mp h ▸ realMatches_execState_reset s r

end Sys2Proof.Machine
end

section
/-! PROOFS. What an operation depends on (spec/10_state.md R22; spec/20_memory.md R38, R40; spec/70_reset_and_hazards.md
R132, R141). -/

namespace Sys2Proof.Machine

/-- Settles O38: what an operation makes of one countdown is no function of the other. -/
theorem countdownsAreIndependent : Obligations.CountdownsAreIndependent := fun i s c =>
  ⟨_, _, _, exec_eq_next _ _, exec_eq_next _ _, exec_eq_next _ _,
    (execState_txCnt i { s with rxCnt := c }).trans (execState_txCnt i s).symm,
    (execState_rxCnt i { s with txCnt := c }).trans (execState_rxCnt i s).symm⟩

/-- The output record is a function of the block, the quantum and the source's readiness. -/
theorem outputOf_congr {s s' : State} (hblock : sameBlock s s') (hq : s.quantum = s'.quantum)
    (havail : s.srcAvail = s'.srcAvail) (i : Instr) : outputOf i s = outputOf i s' := by
  obtain ⟨hdiv, htx, hrx, hbyte⟩ := hblock
  simp only [outputOf, statusByte, State.txBusy, State.rxReady, hdiv, htx, hrx, hbyte, hq, havail]

/-- Settles O44: each field of the block is a function of the samples. -/
theorem blockDependsOnItsSamplesOnly : Obligations.BlockDependsOnItsSamplesOnly := by
  intro i s s' t hblock hq hsample hdraws h
  obtain rfl := exec_eq_next_iff.mp h
  have havail : s.srcAvail = s'.srcAvail := by rw [srcAvail_eq_isSome, hsample, srcAvail_eq_isSome]
  refine ⟨_, exec_eq_next _ _, ?_, ?_, ?_⟩
  · obtain ⟨hdiv, htx, hrx, hbyte⟩ := hblock
    simp only [sameBlock, execState_div, execState_txCnt, execState_rxCnt, execState_rxByte, hdiv, htx, hrx, hbyte, hq,
      hsample, hdraws, and_self]
  · simpa only [execState_out] using outputOf_congr hblock hq havail i
  · rw [execState_draws, execState_draws, havail, hdraws]

/-- A `WR_DATA` that finds the transmitter busy, and every other operation, leaves the divisor out of `tx_cnt`. -/
theorem txCntAfter_div {i : Instr} {c : Nat} (h : i.opName = .wrData → 0 < c) (q : Quantum) (d d' : Divisor) :
    txCntAfter i q d c = txCntAfter i q d' c := by
  cases i with
  | wrData b => exact (if_pos (h rfl)).trans (if_pos (h rfl)).symm
  | step | rdData | rdStatus | rdDivlo | rdDivhi | rdUnmapped | wrStatus | wrDivlo | wrDivhi | wrUnmapped | reset => rfl

/-- Only `RD_DATA` puts the divisor into `rx_cnt`. -/
theorem rxCntAfter_div {i : Instr} (h : i ≠ .rdData) (q : Quantum) (d d' : Divisor) (c : Nat) :
    rxCntAfter i q d c = rxCntAfter i q d' c := by
  cases i with
  | rdData => exact absurd rfl h
  | step | rdStatus | rdDivlo | rdDivhi | rdUnmapped | wrData | wrStatus | wrDivlo | wrDivhi | wrUnmapped | reset => rfl

/-- Settles O45: of the fields in question only the countdowns could depend on the divisor, and they do not. -/
theorem divisorIsSampledAtArmingOnly : Obligations.DivisorIsSampledAtArmingOnly := by
  intro i s d hread hbusy
  refine ⟨_, _, exec_eq_next _ _, exec_eq_next _ _, ?_, ?_, ?_, ?_, ?_, ?_⟩
  · rw [execState_txCnt, execState_txCnt]
    exact txCntAfter_div (fun hw => (txBusy_iff s).mp (hbusy hw)) _ _ _
  · rw [execState_rxCnt, execState_rxCnt]
    exact rxCntAfter_div hread _ _ _ _
  · rw [execState_rxByte, execState_rxByte]
    rfl
  · rw [execState_srcPending, execState_srcPending]
    rfl
  · rw [execState_sink, execState_sink]
  · rw [execState_diag, execState_diag]

/-- Settles O53: nothing of the block stands in what `RESET` makes of it. -/
theorem resetForgetsTheBlock : Obligations.ResetForgetsTheBlock := by
  intro s s' hsample hdraws
  refine ⟨_, _, exec_eq_next _ _, exec_eq_next _ _, ?_⟩
  rw [execState_reset, execState_reset, srcAvail_eq_isSome, srcAvail_eq_isSome, hsample, hdraws]
  exact ⟨⟨rfl, rfl, rfl, rfl⟩, rfl, rfl, rfl⟩

theorem arm_zero (q : Quantum) : arm q 0#16 = 0 := by simp [arm]

theorem dec_zero (q : Quantum) : dec q 0 = 0 := by simp [dec_eq_sub]

/-- An outbound countdown at 0 starts at a `WR_DATA` only, and with a divisor above 0. -/
theorem txCntAfter_pos_of_zero {i : Instr} {q : Quantum} {d : Divisor} (h : 0 < txCntAfter i q d 0) :
    (∃ b, i = .wrData b) ∧ d ≠ 0#16 := by
  obtain ⟨b, rfl, -⟩ | rfl | rfl := txCntAfter_ne h.ne'
  · refine ⟨⟨b, rfl⟩, ?_⟩
    rintro rfl
    exact h.ne' (arm_zero q)
  · exact absurd (dec_zero q) h.ne'
  · exact absurd rfl h.ne'

/-- Settles O42: `tx_cnt` leaves 0 at an accepted `WR_DATA` only, and comes back to 0 at no write. -/
theorem busyFlagMovesOnlySo : Obligations.BusyFlagMovesOnlySo := by
  intro i s t h
  obtain rfl := exec_eq_next_iff.mp h
  simp only [txBusy_iff, txBusy_eq_false_iff, execState_txCnt, execState_out]
  refine ⟨fun hbusy hidle => ?_, fun hidle hbusy => ?_, rxReady_eq_false_of_pos⟩
  · obtain ⟨b, -, hzero⟩ | hother := txCntAfter_ne (hidle.trans_ne hbusy.ne)
    · exact absurd hzero hbusy.ne'
    · exact hother
  · rw [hidle] at hbusy
    obtain ⟨⟨b, rfl⟩, hdiv⟩ := txCntAfter_pos_of_zero hbusy
    exact ⟨b, rfl, outputOf_sink_eq_some_iff.mpr ⟨rfl, hidle⟩, hdiv⟩

end Sys2Proof.Machine
end

section
/-! PROOFS. The boundary: the bus (spec/20_memory.md R35), the clock (spec/30_encoding.md R59) and the divisor's
pseudo-operations (spec/30_encoding.md R58). -/

namespace Sys2Proof

theorem readOp_eq_ite (idx : Nat) : readOp idx = if idx = 0 then .rdData else if idx = 1 then .rdStatus
    else if idx = 2 then .rdDivlo else if idx = 3 then .rdDivhi else .rdUnmapped idx :=
  match idx with
  | 0 | 1 | 2 | 3 => rfl
  | _ + 4 => by simp [readOp]

theorem writeOp_eq_ite (idx : Nat) (b : Byte) : writeOp idx b = if idx = 0 then .wrData b
    else if idx = 1 then .wrStatus b else if idx = 2 then .wrDivlo b else if idx = 3 then .wrDivhi b
    else .wrUnmapped idx b :=
  match idx with
  | 0 | 1 | 2 | 3 => rfl
  | _ + 4 => by simp [writeOp]

end Sys2Proof

namespace Sys2Proof.Machine

/-- Settles O54: at the width of one byte an access is the operation of its index. -/
theorem onlyByteAccessesExist : Obligations.OnlyByteAccessesExist := by
  intro s idx size b
  refine ⟨?_, ?_, fun h => ⟨if_neg h, if_neg h⟩⟩
  · rw [memRead_one, readOp_eq_ite]
  · rw [memWrite_one, writeOp_eq_ite]

-- ## One rising edge of the clock

theorem Output.empty_merge (o : Output) : ({} : Output).merge o = o := rfl

/-- A cycle with one operation is that operation. -/
theorem runCycle_singleton (i : Instr) (s : State) : runCycle [i] {} s = exec i s := by
  rw [runCycle, exec_eq_next]
  rfl

/-- A cycle with two operations performs them in order and puts out what both put out. -/
theorem runCycle_pair (i j : Instr) (s : State) : runCycle [i, j] {} s =
    .next ((execState j (execState i s)).emit ((execState i s).out.merge (execState j (execState i s)).out)) := by
  rw [runCycle, exec_eq_next i]
  show runCycle [j] (({} : Output).merge (execState i s).out) (execState i s) = _
  rw [runCycle, exec_eq_next j, Output.empty_merge]
  rfl

/-- No register access fetches. -/
theorem fetches_busOp (we : Bool) (idx : Nat) (v : Byte) (q : Quantum) (rx : Nat) :
    fetches (busOp we idx v) q rx = false := by
  rw [← Bool.not_eq_true, fetches_iff]
  cases we with
  | false =>
    have hread : (busOp false idx v).isRead = true := readOp_isRead idx
    rintro (⟨h, -⟩ | h) <;> exact Bool.noConfusion (h ▸ hread)
  | true =>
    have hwrite : (busOp true idx v).isWrite = true := writeOp_isWrite idx v
    rintro (⟨h, -⟩ | h) <;> exact Bool.noConfusion (h ▸ hwrite)

/-- Settles O55: a register access takes no source byte and `STEP` puts out nothing else, so the outputs do not meet. -/
theorem clockEdgePerformsAccessThenStep : Obligations.ClockEdgePerformsAccessThenStep := by
  refine fun p s => ⟨fun hrst => ?_, fun hrst hsel => ?_, fun hrst hsel =>
    ⟨_, _, exec_eq_next _ _, exec_eq_next _ _, ?_⟩⟩
  · rw [clockEdge, cycleOps, if_pos hrst, runCycle_singleton]
  · rw [clockEdge, cycleOps, hrst, hsel]
    exact runCycle_singleton _ s
  · have htake : (execState (busOp p.we p.idx p.wdata) s).out.srcTake = false := by
      rw [execState_out, outputOf_srcTake, fetches_busOp, Bool.false_and]
    have hcycle : cycleOps p = [busOp p.we p.idx p.wdata, .step] := by rw [cycleOps, hrst, hsel]; rfl
    rw [clockEdge, hcycle, runCycle_pair, Output.merge, htake, execState_out .step]
    simp only [outputOf, Option.or_none, Bool.false_or, State.emit]

-- ## The divisor's pseudo-operations

theorem composeDiv_halves (d : Divisor) : composeDiv (divHi d) (divLo d) = d := by
  exact (BitVec.extractLsb'_append_extractLsb'_eq_extractLsb' rfl).trans BitVec.extractLsb'_eq_self

theorem getDivValue_eq (s : State) : getDivValue s = some s.div :=
  congrArg some (composeDiv_halves s.div)

/-- Settles O58: the two halves put together are the divisor. -/
theorem getDivAfterSetDiv : Obligations.GetDivAfterSetDiv := by
  refine fun s v fuel => ⟨getDivValue_eq s, _, ?_, rfl, getDivValue_eq _⟩
  show goOn (runOps [.wrDivlo (divLo v), .wrDivhi (divHi v)] s) = _
  rw [runOps_wrDivlo_wrDivhi, show divHi v ++ divLo v = v from composeDiv_halves v]
  rfl

end Sys2Proof.Machine
end

section
/-! PROOFS. The countdowns along a run (spec/40_timing_engine.md R74, R77): while nothing arms it or a running countdown
lasts, a countdown is lowered by `QN` for each `STEP` of the run, and no byte moves before it expires. -/

namespace Sys2Proof.Machine

-- ## Runs

theorem lacks_cons {n : OpName} {i : Instr} {ops : List Instr} :
    lacks n (i :: ops) ↔ i.opName ≠ n ∧ lacks n ops :=
  List.forall_mem_cons

theorem lacks_replicate_step {n : OpName} (h : n ≠ .step) (k : Nat) : lacks n (List.replicate k .step) := fun _ hi =>
  List.eq_of_mem_replicate hi ▸ h.symm

theorem stepCount_replicate_step (k : Nat) : stepCount (List.replicate k .step) = k := by
  simp [stepCount, List.countP_replicate]

theorem stepCount_of_lacks_step {ops : List Instr} (h : lacks .step ops) : stepCount ops = 0 := by
  rw [stepCount, List.countP_eq_zero]
  rintro i hi heq
  exact h i hi (congrArg Instr.opName (of_decide_eq_true heq))

/-- Within a run `src_avail` moves with the waiting bytes only (log entry 13). -/
theorem runState_srcAvail {ops : List Instr} {s : State} (h : (runState ops s).srcPending = s.srcPending) :
    (runState ops s).srcAvail = s.srcAvail :=
  srcAvail_congr h
    (runState_induction (P := fun u => u.srcHasMore = s.srcHasMore)
      (fun i _ u hu => (execState_srcHasMore i u).trans hu) rfl)
    (runState_induction (P := fun u => u.srcCanProbe = s.srcCanProbe)
      (fun i _ u hu => (execState_srcCanProbe i u).trans hu) rfl)

theorem srcAvail_of_empty {s : State} (h : s.srcPending = []) : s.srcAvail = false := by
  simp [State.srcAvail, State.isExhausted, h]

-- ## How many steps a countdown lasts

/-- `k` steps are fewer than `ceil(c / QN)` exactly if they leave a countdown of `c` above 0 (R77). -/
theorem lt_stepsToExpiry_iff {q : Quantum} (hq : q.wf = true) {k c : Nat} : k < stepsToExpiry q c ↔ k * q.qn < c := by
  obtain ⟨hqn, -⟩ := (Quantum_wf_iff q).mp hq
  rw [stepsToExpiry, Nat.lt_div_iff_mul_lt hqn]
  omega

-- ## The outbound countdown

theorem txCntAfter_eq_sub {i : Instr} {c : Nat} (hreset : i.opName ≠ .reset) (hpace : i.opName = .wrData → 0 < c)
    (q : Quantum) (d : Divisor) : txCntAfter i q d c = c - (if i = .step then 1 else 0) * q.qn := by
  cases i with
  | step => simp [txCntAfter, dec_eq_sub]
  | wrData b => simp [txCntAfter, hpace rfl]
  | reset => exact absurd rfl hreset
  | rdData | rdStatus | rdDivlo | rdDivhi | rdUnmapped | wrStatus | wrDivlo | wrDivhi | wrUnmapped => simp [txCntAfter]

/-- In a run that does not arm it, or that it outlasts, the outbound countdown loses `QN` at each `STEP`. -/
theorem runState_txCnt {ops : List Instr} {s : State} (hreset : lacks .reset ops)
    (hpace : lacks .wrData ops ∨ stepCount ops * s.quantum.qn < s.txCnt) :
    (runState ops s).txCnt = s.txCnt - stepCount ops * s.quantum.qn := by
  induction ops generalizing s with
  | nil => simp
  | cons i ops ih =>
    rw [lacks_cons] at hreset
    rw [lacks_cons, stepCount_cons, Nat.add_mul] at hpace
    have hfirst : (execState i s).txCnt = s.txCnt - (if i = .step then 1 else 0) * s.quantum.qn := by
      rw [execState_txCnt]
      refine txCntAfter_eq_sub hreset.1 (fun hw => ?_) _ _
      obtain ⟨hlacks, -⟩ | hlt := hpace
      · exact absurd hw hlacks
      · omega
    rw [runState_cons, ih hreset.2, hfirst, execState_quantum, stepCount_cons, Nat.add_mul, Nat.sub_sub, Nat.add_comm]
    rw [hfirst, execState_quantum]
    exact hpace.imp And.right fun hlt => by omega

/-- Settles O34: the countdown starts at the arming value and loses `QN` at each `STEP`. -/
theorem busyForExactlyCeilSteps : Obligations.BusyForExactlyCeilSteps := by
  intro s t b ops hq hidle h hreset
  obtain rfl := exec_eq_next_iff.mp h
  have harmed : (execState (.wrData b) s).txCnt = arm s.quantum s.div := by
    rw [execState_txCnt, (txBusy_eq_false_iff s).mp hidle]
    rfl
  refine ⟨fun hfew => ⟨_, runOps_eq_next _ _, ?_⟩, fun hmany hwrite => ⟨_, runOps_eq_next _ _, ?_⟩⟩
  · have hlt : stepCount ops * s.quantum.qn < arm s.quantum s.div := (lt_stepsToExpiry_iff hq).mp hfew
    rw [txBusy_iff, runState_txCnt hreset, harmed, execState_quantum]
    · omega
    · rw [harmed, execState_quantum]
      exact .inr hlt
  · have hge : ¬ stepCount ops * s.quantum.qn < arm s.quantum s.div :=
      mt (lt_stepsToExpiry_iff hq).mpr (not_lt.mpr hmany)
    rw [txBusy_eq_false_iff, runState_txCnt hreset (.inl hwrite), harmed, execState_quantum]
    omega

-- ## The receive side

theorem rxCntAfter_eq_sub {i : Instr} (hread : i.opName ≠ .rdData) (hreset : i.opName ≠ .reset) (q : Quantum)
    (d : Divisor) (c : Nat) : rxCntAfter i q d c = c - (if i = .step then 1 else 0) * q.qn := by
  cases i with
  | step => simp [rxCntAfter, dec_eq_sub]
  | rdData => exact absurd rfl hread
  | reset => exact absurd rfl hreset
  | rdStatus | rdDivlo | rdDivhi | rdUnmapped | wrData | wrStatus | wrDivlo | wrDivhi | wrUnmapped => simp [rxCntAfter]

/-- Only a `STEP` at an expiry fetches, `RESET` aside. -/
theorem fetches_eq_false {i : Instr} {q : Quantum} {rx : Nat} (hreset : i.opName ≠ .reset)
    (hstep : i = .step → ¬ (0 < rx ∧ rx ≤ q.qn)) : fetches i q rx = false := by
  rw [← Bool.not_eq_true, fetches_iff]
  rintro (⟨hi, hexp⟩ | rfl)
  · exact hstep hi hexp
  · exact hreset rfl

theorem execState_rxByte_of_not_fetches {i : Instr} {s : State} (h : fetches i s.quantum s.rxCnt = false) :
    (execState i s).rxByte = s.rxByte := by
  rw [execState_rxByte, rxByteAfter_of_not_fetches h]

/-- A fetch attempt that finds no byte leaves the cached one, `RESET` aside (R81). -/
theorem execState_rxByte_of_not_srcAvail {i : Instr} {s : State} (hreset : i.opName ≠ .reset)
    (h : s.srcAvail = false) : (execState i s).rxByte = s.rxByte := by
  by_contra hne
  rw [execState_rxByte] at hne
  obtain ⟨-, -, hsome⟩ | rfl := rxByteAfter_ne hne
  · rw [← srcAvail_eq_isSome, h] at hsome
    exact Bool.noConfusion hsome
  · exact hreset rfl

/-- The `STEP` of an expiry takes the waiting byte, if there is one, and leaves the countdown at 0. -/
theorem execState_step_of_expired {s : State} (h : expired s.quantum s.rxCnt = true) :
    (execState .step s).rxCnt = 0 ∧
      (s.srcAvail = true → s.srcPending = (execState .step s).rxByte :: (execState .step s).srcPending) ∧
      (s.srcAvail = false →
        (execState .step s).rxByte = s.rxByte ∧ (execState .step s).srcPending = s.srcPending) :=
  ⟨(execState_rxCnt _ _).trans (dec_of_expired h), srcPending_of_fetches h, fun hnone =>
    ⟨execState_rxByte_of_not_srcAvail (by decide) hnone, execState_srcPending_of_not_srcAvail _ hnone⟩⟩

/-- In a run that does not arm it, and with no expiry in it, the inbound countdown loses `QN` at each `STEP` and no byte
moves. -/
theorem runState_rx {ops : List Instr} {s : State} (hread : lacks .rdData ops) (hreset : lacks .reset ops)
    (hquiet : s.rxCnt = 0 ∨ stepCount ops * s.quantum.qn < s.rxCnt) :
    (runState ops s).rxCnt = s.rxCnt - stepCount ops * s.quantum.qn ∧ (runState ops s).rxByte = s.rxByte ∧
      (runState ops s).srcPending = s.srcPending := by
  induction ops generalizing s with
  | nil => simp
  | cons i ops ih =>
    rw [lacks_cons] at hread hreset
    rw [stepCount_cons, Nat.add_mul] at hquiet
    have hfirst : (execState i s).rxCnt = s.rxCnt - (if i = .step then 1 else 0) * s.quantum.qn := by
      rw [execState_rxCnt, rxCntAfter_eq_sub hread.1 hreset.1]
    have hno : fetches i s.quantum s.rxCnt = false := fetches_eq_false hreset.1 fun hi => by
      rw [if_pos hi] at hquiet
      omega
    have hrest : (execState i s).rxCnt = 0 ∨ stepCount ops * (execState i s).quantum.qn < (execState i s).rxCnt := by
      rw [hfirst, execState_quantum]
      omega
    obtain ⟨hrx, hbyte, hpending⟩ := ih hread.2 hreset.2 hrest
    refine ⟨?_, hbyte.trans (execState_rxByte_of_not_fetches hno),
      hpending.trans (execState_srcPending_of_not_fetches hno)⟩
    rw [runState_cons, hrx, hfirst, execState_quantum, stepCount_cons, Nat.add_mul, Nat.sub_sub, Nat.add_comm]

/-- After a `RD_DATA` and fewer steps than its countdown lasts, nothing has been fetched. -/
theorem runState_rdData_counting {s : State} {ops : List Instr} (hread : lacks .rdData ops) (hreset : lacks .reset ops)
    (hfew : stepCount ops * s.quantum.qn < arm s.quantum s.div) :
    (runState (.rdData :: ops) s).rxCnt = arm s.quantum s.div - stepCount ops * s.quantum.qn ∧
      (runState (.rdData :: ops) s).rxByte = s.rxByte ∧ (runState (.rdData :: ops) s).srcPending = s.srcPending := by
  have harmed : (execState .rdData s).rxCnt = arm s.quantum s.div := execState_rxCnt _ _
  obtain ⟨hrx, hbyte, hpending⟩ := runState_rx (s := execState .rdData s) hread hreset
    (.inr (by rwa [harmed, execState_quantum]))
  exact ⟨by rw [runState_cons, hrx, harmed, execState_quantum], hbyte.trans (execState_rxByte_of_not_fetches rfl),
    hpending.trans (execState_srcPending_of_not_fetches rfl)⟩

/-- After a `RD_DATA` and all steps but one of its countdown, the next `STEP` is its expiry. -/
theorem expired_after_rdData {s : State} {ops : List Instr} (hq : s.quantum.wf = true) (hread : lacks .rdData ops)
    (hreset : lacks .reset ops) (hlast : stepCount ops + 1 = stepsToExpiry s.quantum (arm s.quantum s.div)) :
    expired (runState (.rdData :: ops) s).quantum (runState (.rdData :: ops) s).rxCnt = true := by
  have hfew : stepCount ops * s.quantum.qn < arm s.quantum s.div := (lt_stepsToExpiry_iff hq).mp (by omega)
  have hall : ¬ (stepCount ops + 1) * s.quantum.qn < arm s.quantum s.div := mt (lt_stepsToExpiry_iff hq).mpr (by omega)
  rw [Nat.add_mul, Nat.one_mul] at hall
  rw [expired_iff, runState_quantum, (runState_rdData_counting hread hreset hfew).1]
  omega

/-- Settles O35: before the `N`-th `STEP`, at it, and without one. -/
theorem refillInExactlyTheNthStep : Obligations.RefillInExactlyTheNthStep := by
  intro s t ops hq h hreset hread
  obtain rfl := exec_eq_next_iff.mp h
  refine ⟨fun hfew => ⟨_, runOps_eq_next _ _, ?_⟩,
    fun hlast => ⟨_, _, runOps_eq_next _ _, exec_eq_next _ _, ?_⟩, fun hzero => ⟨_, runOps_eq_next _ _, ?_⟩⟩
  · have hlt : stepCount ops * s.quantum.qn < arm s.quantum s.div := (lt_stepsToExpiry_iff hq).mp hfew
    obtain ⟨hrx, hbyte, hpending⟩ := runState_rdData_counting hread hreset hlt
    exact ⟨rxReady_eq_false_of_pos (by rw [← runState_cons, hrx]; omega), hbyte, hpending⟩
  · have hlt : stepCount ops * s.quantum.qn < arm s.quantum s.div :=
      (lt_stepsToExpiry_iff hq).mp (Nat.lt_of_succ_le (le_of_eq hlast))
    obtain ⟨-, hbyte, hpending⟩ := runState_rdData_counting hread hreset hlt
    have hexp := expired_after_rdData hq hread hreset hlast
    have havail : (runState (.rdData :: ops) s).srcAvail = s.srcAvail := runState_srcAvail hpending
    obtain ⟨hrx, htaken, hkept⟩ := execState_step_of_expired hexp
    rw [havail, hpending] at htaken
    rw [havail, hbyte, hpending] at hkept
    refine ⟨hrx, ?_, htaken, hkept⟩
    rw [← runState_cons, execState_out, outputOf_srcTake, havail]
    exact (congrArg (· && s.srcAvail) hexp).trans (Bool.true_and _)
  · have harm : ¬ 0 * s.quantum.qn < arm s.quantum s.div :=
      mt (lt_stepsToExpiry_iff hq).mpr (not_lt.mpr (le_of_eq hzero))
    have hrest : (execState .rdData s).rxCnt = 0 := by
      rw [execState_rxCnt]
      exact Nat.eq_zero_of_not_pos (by rwa [Nat.zero_mul] at harm)
    obtain ⟨hrx, hbyte, hpending⟩ := runState_rx (s := execState .rdData s) hread hreset (.inl hrest)
    rw [hrest, Nat.zero_sub] at hrx
    exact ⟨hrx, hbyte.trans (execState_rxByte_of_not_fetches rfl),
      hpending.trans (execState_srcPending_of_not_fetches rfl)⟩

/-- Settles O36: a countdown of 1 to `QN` expires, a larger one goes on, and one at 0 stays there. -/
theorem expiryRefillsExactlyOnce : Obligations.ExpiryRefillsExactlyOnce := by
  refine ⟨fun s hpos hle => ⟨_, exec_eq_next _ _, ?_⟩, fun s ops hzero hread hreset => ⟨_, runOps_eq_next _ _, ?_⟩,
    fun s hlt => ⟨_, exec_eq_next _ _, ?_⟩, fun s t h hpos => ?_⟩
  · exact execState_step_of_expired ((expired_iff _ _).mpr ⟨hpos, hle⟩)
  · obtain ⟨hrx, hbyte, hpending⟩ := runState_rx hread hreset (.inl hzero)
    exact ⟨by rw [hrx, hzero, Nat.zero_sub], hbyte, hpending⟩
  · have hno : fetches .step s.quantum s.rxCnt = false := fetches_eq_false (by decide) fun _ => by omega
    refine ⟨?_, ?_, execState_rxByte_of_not_fetches hno, execState_srcPending_of_not_fetches hno⟩
    · rw [execState_rxCnt, rxCntAfter, dec_eq_sub]
      omega
    · rw [execState_out, outputOf_srcTake, hno, Bool.false_and]
  · obtain rfl := exec_eq_next_iff.mp h
    rw [execState_rxCnt, rxCntAfter] at hpos
    intro hdiv
    rw [hdiv, arm_zero] at hpos
    exact Nat.lt_irrefl 0 hpos

/-- Settles O43: without `STEP` and `RESET` no operation fetches, and no countdown is lowered. -/
theorem nothingMovesWithoutSteps : Obligations.NothingMovesWithoutSteps := by
  intro s ops hstep hreset
  have hno : ∀ i ∈ ops, ∀ u : State, fetches i u.quantum u.rxCnt = false := fun i hi u =>
    fetches_eq_false (hreset i hi) fun heq => absurd (congrArg Instr.opName heq) (hstep i hi)
  refine ⟨_, runOps_eq_next _ _, ?_, ?_, fun hbusy => ?_⟩
  · exact runState_induction (P := fun u => u.rxByte = s.rxByte)
      (fun i hi u hu => (execState_rxByte_of_not_fetches (hno i hi u)).trans hu) rfl
  · exact runState_induction (P := fun u => u.srcPending = s.srcPending)
      (fun i hi u hu => (execState_srcPending_of_not_fetches (hno i hi u)).trans hu) rfl
  · have hsteps := stepCount_of_lacks_step hstep
    have hcount := runState_txCnt hreset (.inr (by rwa [hsteps, Nat.zero_mul, ← txBusy_iff]))
    rwa [hsteps, Nat.zero_mul, Nat.sub_zero] at hcount

-- ## Reading too soon, and a late byte

theorem runState_replicate_step_div (k : Nat) (s : State) : (runState (List.replicate k .step) s).div = s.div :=
  runState_induction (P := fun u => u.div = s.div)
    (fun i hi u hu => by rw [List.eq_of_mem_replicate hi, execState_div]; exact hu) rfl

/-- Settles O51, by induction over the gaps: no gap lets the countdown expire. -/
theorem rereadingStarvesTheReceiver : Obligations.RereadingStarvesTheReceiver := by
  intro s gaps hq hgaps
  refine ⟨_, runOps_eq_next _ _, ?_⟩
  induction gaps generalizing s with
  | nil => exact ⟨rfl, rfl⟩
  | cons g gaps ih =>
    rw [List.forall_mem_cons] at hgaps
    have hfew : stepCount (List.replicate g .step) * s.quantum.qn < arm s.quantum s.div := by
      rw [stepCount_replicate_step]
      exact (lt_stepsToExpiry_iff hq).mp hgaps.1
    obtain ⟨-, hbyte, hpending⟩ := runState_rdData_counting (lacks_replicate_step (by decide) g)
      (lacks_replicate_step (by decide) g) hfew
    have hdiv : (runState (.rdData :: List.replicate g .step) s).div = s.div :=
      (runState_replicate_step_div g _).trans (execState_div _ _)
    have hquantum := runState_quantum (.rdData :: List.replicate g .step) s
    rw [List.flatMap_cons, runState_append, ← hbyte, ← hpending]
    exact ih _ (by rwa [hquantum]) (by rw [hdiv, hquantum]; exact hgaps.2)

/-- A byte that `has_more()` tells of is announced as soon as the countdown is 0. -/
theorem rxReady_srcEvent {s : State} (h : s.rxCnt = 0) (b : Byte) (bs : List Byte) :
    (s.srcEvent (b :: bs) true).rxReady = true := by
  rw [rxReady_iff]
  exact ⟨h, by simp [State.srcAvail, State.isExhausted, State.readable]⟩

/-- A `RD_DATA` with a byte at the source, then all steps of its countdown: the byte is in the cache. -/
theorem runState_rdData_expiry {s : State} {b : Byte} {bs : List Byte} (hq : s.quantum.wf = true)
    (hdiv : s.div ≠ 0#16) (havail : s.srcAvail = true) (hpending : s.srcPending = b :: bs) :
    (runState (.rdData :: List.replicate (stepsToExpiry s.quantum (arm s.quantum s.div)) .step) s).rxByte = b := by
  have hpos : 0 < stepsToExpiry s.quantum (arm s.quantum s.div) := by
    rw [lt_stepsToExpiry_iff hq, Nat.zero_mul]
    exact Nat.pos_of_ne_zero (mt (arm_eq_zero_iff hq _).mp hdiv)
  obtain ⟨n, hn⟩ := Nat.exists_eq_add_one_of_ne_zero hpos.ne'
  have hread := lacks_replicate_step (n := .rdData) (by decide) n
  have hreset := lacks_replicate_step (n := .reset) (by decide) n
  have hlast : stepCount (List.replicate n .step) + 1 = stepsToExpiry s.quantum (arm s.quantum s.div) := by
    rw [stepCount_replicate_step, hn]
  obtain ⟨-, -, hkept⟩ := runState_rdData_counting hread hreset ((lt_stepsToExpiry_iff hq).mp (by omega))
  obtain ⟨-, htaken, -⟩ := execState_step_of_expired (expired_after_rdData hq hread hreset hlast)
  have htaken := htaken ((runState_srcAvail hkept).trans havail)
  rw [hkept, hpending] at htaken
  rw [hn, List.replicate_succ', ← List.cons_append, runState_append]
  exact (List.cons.inj htaken).1.symm

/-- Settles O52: the empty expiry, the arrival, the read of the old byte, and the expiry after it. -/
theorem lateSourceGivesOneDuplicate : Obligations.LateSourceGivesOneDuplicate := by
  intro s b hq hdiv hpos hle hempty
  have hnone := srcAvail_of_empty hempty
  obtain ⟨hrx, -, hkept⟩ := execState_step_of_expired ((expired_iff _ _).mpr ⟨hpos, hle⟩)
  obtain ⟨hbyte, hpending⟩ := hkept hnone
  have hready := rxReady_srcEvent hrx b []
  refine ⟨_, _, _, exec_eq_next _ _, ?_, hready, exec_eq_next _ _, ?_, runOps_eq_next _ _, ?_⟩
  · rw [State.rxReady, srcAvail_of_empty (hpending.trans hempty), Bool.and_false]
  · rw [execState_out]
    exact congrArg some hbyte
  · have hquantum : ((execState .step s).srcEvent [b] true).quantum = s.quantum := execState_quantum _ _
    have hsame : ((execState .step s).srcEvent [b] true).div = s.div := execState_div _ _
    have hlate : ((execState .step s).srcEvent [b] true).srcPending = [b] := by
      rw [State.srcEvent_srcPending, hpending, hempty]
      rfl
    have hresult := runState_rdData_expiry (by rwa [hquantum]) (by rwa [hsame]) ((rxReady_iff _).mp hready).2 hlate
    rwa [hquantum, hsame] at hresult

end Sys2Proof.Machine
end

section
/-! PROOFS. What a run sends, drops and delivers (spec/41_byte_cache.md R83 to R87), and the hazards of a run
(spec/70_reset_and_hazards.md R135, R136, R138). -/

namespace Sys2Proof.Machine

-- ## The bytes sent and dropped

theorem dataWrites_cons (busy : Bool) (i : Instr) (ops : List Instr) (s : State) : dataWrites busy (i :: ops) s =
    (if s.txBusy = busy then (dataByte? i).toList else []) ++ dataWrites busy ops (execState i s) := by
  rw [dataWrites, exec_eq_next]

/-- A connected sink receives the byte of a write that found the transmitter idle. -/
theorem execState_sink_of_bound {s : State} (h : s.sinkBound = true) (i : Instr) :
    (execState i s).sink = s.sink ++ if s.txBusy = false then (dataByte? i).toList else [] := by
  simp only [execState_sink, txBusy_eq_false_iff, h]
  cases i with
  | wrData b => by_cases hidle : s.txCnt = 0 <;> simp [sinkAfter, dataByte?, hidle]
  | step | rdData | rdStatus | rdDivlo | rdDivhi | rdUnmapped | wrStatus | wrDivlo | wrDivhi | wrUnmapped | reset =>
    simp [sinkAfter, dataByte?]

theorem execState_sink_of_unbound {s : State} (h : s.sinkBound = false) (i : Instr) :
    (execState i s).sink = s.sink := by
  rw [execState_sink, h]
  cases i with
  | wrData b => simp [sinkAfter]
  | step | rdData | rdStatus | rdDivlo | rdDivhi | rdUnmapped | wrStatus | wrDivlo | wrDivhi | wrUnmapped | reset => rfl

/-- The diagnostic port reports the byte of a write that found the transmitter busy. -/
theorem execState_diag_eq_append (i : Instr) (s : State) :
    (execState i s).diag = s.diag ++ if s.txBusy = true then (dataByte? i).toList else [] := by
  simp only [execState_diag, txBusy_iff]
  cases i with
  | wrData b => by_cases hbusy : 0 < s.txCnt <;> simp [diagAfter, dataByte?, hbusy]
  | step | rdData | rdStatus | rdDivlo | rdDivhi | rdUnmapped | wrStatus | wrDivlo | wrDivhi | wrUnmapped | reset =>
    simp [diagAfter, dataByte?]

theorem runState_sink_of_bound (ops : List Instr) {s : State} (h : s.sinkBound = true) :
    (runState ops s).sink = s.sink ++ dataWrites false ops s := by
  induction ops generalizing s with
  | nil => simp [dataWrites]
  | cons i ops ih =>
    rw [runState_cons, ih ((execState_sinkBound i s).trans h), execState_sink_of_bound h, dataWrites_cons,
      List.append_assoc]

theorem runState_sink_of_unbound (ops : List Instr) {s : State} (h : s.sinkBound = false) :
    (runState ops s).sink = s.sink := by
  induction ops generalizing s with
  | nil => rfl
  | cons i ops ih => rw [runState_cons, ih ((execState_sinkBound i s).trans h), execState_sink_of_unbound h]

theorem runState_diag (ops : List Instr) (s : State) : (runState ops s).diag = s.diag ++ dataWrites true ops s := by
  induction ops generalizing s with
  | nil => simp [dataWrites]
  | cons i ops ih => rw [runState_cons, ih, execState_diag_eq_append, dataWrites_cons, List.append_assoc]

/-- Settles O46, with a sink and without. -/
theorem sinkGetsExactlyAcceptedWrites : Obligations.SinkGetsExactlyAcceptedWrites := by
  refine fun ops s => ⟨_, runOps_eq_next _ _, ?_, runState_diag ops s⟩
  split
  · next hbound => exact runState_sink_of_bound ops hbound
  · next hunbound => exact runState_sink_of_unbound ops (Bool.eq_false_iff.mpr hunbound)

-- ## The bytes delivered

theorem freshReads_cons_rdData (fresh : Bool) (ops : List Instr) (s : State) : freshReads fresh (.rdData :: ops) s =
    (if fresh then [s.rxByte] else []) ++ freshReads false ops (execState .rdData s) := by
  rw [freshReads, exec_eq_next]
  rfl

theorem freshReads_cons_of_ne {i : Instr} (h : i ≠ .rdData) (fresh : Bool) (ops : List Instr) (s : State) :
    freshReads fresh (i :: ops) s = freshReads (fresh || (execState i s).out.srcTake) ops (execState i s) := by
  rw [freshReads, exec_eq_next]
  exact if_neg h

/-- What is still to be delivered: the waiting bytes, and the cached one before them if no read has returned it. -/
def undelivered (fresh : Bool) (s : State) : List Byte := if fresh then s.rxByte :: s.srcPending else s.srcPending

/-- An inbound countdown at 0 is armed by a `RD_DATA` with a divisor above 0 only. -/
theorem rxCntAfter_zero {i : Instr} {d : Divisor} (h : i = .rdData → d = 0#16) (q : Quantum) :
    rxCntAfter i q d 0 = 0 := by
  by_contra hne
  obtain rfl | rfl | rfl := rxCntAfter_ne hne
  · rw [h rfl] at hne
    exact hne (arm_zero q)
  · exact hne (dec_zero q)
  · exact hne rfl

/-- Without a byte taken both the cache and the source are as before, `RESET` aside. -/
theorem execState_receive_of_not_srcTake {i : Instr} {s : State} (hreset : i.opName ≠ .reset)
    (h : (execState i s).out.srcTake = false) :
    (execState i s).rxByte = s.rxByte ∧ (execState i s).srcPending = s.srcPending := by
  rw [execState_out, outputOf_srcTake, Bool.and_eq_false_iff] at h
  obtain hno | hnone := h
  · exact ⟨execState_rxByte_of_not_fetches hno, execState_srcPending_of_not_fetches hno⟩
  · exact ⟨execState_rxByte_of_not_srcAvail hreset hnone, execState_srcPending_of_not_srcAvail i hnone⟩

/-- An operation other than `RD_DATA` and `RESET` leaves what is to be delivered: a fresh byte is never overwritten, for
the countdown is at 0, so that no expiry comes before the read that arms it. -/
theorem undelivered_execState {fresh : Bool} {i : Instr} {s : State} (hread : i ≠ .rdData)
    (hreset : i.opName ≠ .reset) (hrest : fresh = true → s.rxCnt = 0) :
    undelivered (fresh || (execState i s).out.srcTake) (execState i s) = undelivered fresh s ∧
      ((fresh || (execState i s).out.srcTake) = true → (execState i s).rxCnt = 0) := by
  cases htake : (execState i s).out.srcTake with
  | false =>
    obtain ⟨hbyte, hpending⟩ := execState_receive_of_not_srcTake hreset htake
    rw [Bool.or_false, undelivered, hbyte, hpending, execState_rxCnt]
    refine ⟨rfl, fun hfresh => ?_⟩
    rw [hrest hfresh]
    exact rxCntAfter_zero (fun h => absurd h hread) _
  | true =>
    rw [execState_out, outputOf_srcTake, Bool.and_eq_true] at htake
    obtain ⟨hfetch, havail⟩ := htake
    obtain ⟨rfl, hpos, hle⟩ | rfl := fetches_iff.mp hfetch
    · cases fresh with
      | true => exact absurd (hrest rfl) hpos.ne'
      | false => exact ⟨(srcPending_of_fetches hfetch havail).symm, fun _ =>
          (execState_step_of_expired ((expired_iff _ _).mpr ⟨hpos, hle⟩)).1⟩
    · exact absurd rfl hreset

/-- The fresh reads of a run are the first of the bytes to be delivered. -/
theorem freshReads_prefix {ops : List Instr} {fresh : Bool} {s : State} (hreset : lacks .reset ops)
    (hrest : fresh = true → s.rxCnt = 0) : freshReads fresh ops s <+: undelivered fresh s := by
  induction ops generalizing fresh s with
  | nil => exact List.nil_prefix
  | cons i ops ih =>
    rw [lacks_cons] at hreset
    by_cases hread : i = .rdData
    · subst hread
      have hlater : freshReads false ops (execState .rdData s) <+: s.srcPending :=
        execState_srcPending_of_not_fetches (s := s) (i := .rdData) rfl ▸ ih hreset.2 nofun
      rw [freshReads_cons_rdData]
      cases fresh with
      | true => exact (List.prefix_append_right_inj [s.rxByte]).mpr hlater
      | false => exact hlater
    · obtain ⟨hsame, hrest⟩ := undelivered_execState hread hreset.1 hrest
      rw [freshReads_cons_of_ne hread, ← hsame]
      exact ih hreset.2 hrest

/-- Settles O47: after the prime the cached byte and the waiting ones are those the source had. -/
theorem freshReadsAreTheSourceInOrder : Obligations.FreshReadsAreTheSourceInOrder := by
  intro s t ops havail h hreset
  obtain rfl := exec_eq_next_iff.mp h
  rw [srcPending_of_fetches (i := .reset) rfl havail]
  exact freshReads_prefix hreset fun _ => execState_rxCnt _ _

-- ## An exhausted source

theorem execState_srcPending_of_empty {s : State} (h : s.srcPending = []) (i : Instr) :
    (execState i s).srcPending = [] :=
  (execState_srcPending_of_not_srcAvail i (srcAvail_of_empty h)).trans h

theorem rxReady_of_empty {s : State} (h : s.srcPending = []) : s.rxReady = false := by
  rw [State.rxReady, srcAvail_of_empty h, Bool.and_false]

/-- Settles O48: no operation makes a waiting byte. -/
theorem exhaustedSourceIsNeverReady : Obligations.ExhaustedSourceIsNeverReady := by
  intro s ops hempty
  have hend : (runState ops s).srcPending = [] :=
    runState_induction (P := fun u => u.srcPending = []) (fun i _ u hu => execState_srcPending_of_empty hu i) hempty
  refine ⟨_, runOps_eq_next _ _, rxReady_of_empty hend, hend, fun hreset => ?_⟩
  have hboth : (runState ops s).srcPending = [] ∧ (runState ops s).rxByte = s.rxByte :=
    runState_induction (P := fun u => u.srcPending = [] ∧ u.rxByte = s.rxByte) (fun i hi u ⟨hnone, hbyte⟩ =>
      ⟨execState_srcPending_of_empty hnone i,
        (execState_rxByte_of_not_srcAvail (hreset i hi) (srcAvail_of_empty hnone)).trans hbyte⟩) ⟨hempty, rfl⟩
  exact hboth.2

-- ## An idle transmitter

theorem txCntAfter_zero {i : Instr} {d : Divisor} (h : i.opName = .wrData → d = 0#16) (q : Quantum) :
    txCntAfter i q d 0 = 0 := by
  by_contra hne
  obtain ⟨⟨b, rfl⟩, hdiv⟩ := txCntAfter_pos_of_zero (Nat.pos_of_ne_zero hne)
  exact hdiv (h rfl)

/-- While the transmitter is idle nothing is reported. -/
theorem execState_diag_of_idle {s : State} (h : s.txCnt = 0) (i : Instr) : (execState i s).diag = s.diag := by
  by_contra hne
  rw [execState_diag] at hne
  obtain ⟨b, -, hbusy, -⟩ := diagAfter_ne hne
  omega

/-- Settles O49: only a `WR_DATA` ends the idleness. -/
theorem seenIdleMeansAccepted : Obligations.SeenIdleMeansAccepted := by
  intro s ops b hidle hwrite
  rw [txBusy_eq_false_iff] at hidle
  obtain ⟨hend, hdiag⟩ : (runState ops s).txCnt = 0 ∧ (runState ops s).diag = s.diag :=
    runState_induction (P := fun u => u.txCnt = 0 ∧ u.diag = s.diag) (fun i hi u ⟨htx, hdiag⟩ =>
      ⟨by rw [execState_txCnt, htx, txCntAfter_zero fun h => absurd h (hwrite i hi)],
        (execState_diag_of_idle htx i).trans hdiag⟩) ⟨hidle, rfl⟩
  exact ⟨_, _, runOps_eq_next _ _, exec_wrData_idle b ((txBusy_eq_false_iff _).mpr hend), rfl, hdiag⟩

-- ## Divisor 0

/-- Divisor 0 and both countdowns at 0 (R136). -/
structure State.unpaced (s : State) : Prop where
  div_eq : s.div = 0#16
  txCnt_eq : s.txCnt = 0
  rxCnt_eq : s.rxCnt = 0

section Unpaced
variable {i : Instr} {s : State} (hlo : i.opName ≠ .wrDivlo) (hhi : i.opName ≠ .wrDivhi)
  (hreset : i.opName ≠ .reset) (h : s.unpaced)
include hlo hhi hreset h

/-- Only the writers of the divisor end the state without pacing. -/
theorem execState_unpaced : (execState i s).unpaced := by
  obtain ⟨hdiv, htx, hrx⟩ := h
  refine ⟨?_, ?_, ?_⟩
  · rw [execState_div, hdiv]
    by_contra hne
    obtain heq | heq | rfl := divAfter_ne hne
    · exact hlo heq
    · exact hhi heq
    · exact hreset rfl
  · rw [execState_txCnt, htx, txCntAfter_zero fun _ => hdiv]
  · rw [execState_rxCnt, hrx, rxCntAfter_zero fun _ => hdiv]

omit hlo hhi in
/-- Without pacing no countdown expires. -/
theorem not_fetches_of_unpaced : fetches i s.quantum s.rxCnt = false :=
  fetches_eq_false hreset fun _ hexp => hexp.1.ne' h.rxCnt_eq

end Unpaced

section UnpacedRun
variable {ops : List Instr} {s : State} (hlo : lacks .wrDivlo ops) (hhi : lacks .wrDivhi ops)
  (hreset : lacks .reset ops) (h : s.unpaced)
include hlo hhi hreset h

/-- What an operation without pacing keeps, a run without pacing keeps. -/
theorem runState_unpaced {α : Type} {field : State → α}
    (hkeep : ∀ i ∈ ops, ∀ u, u.unpaced → field (execState i u) = field u) :
    (runState ops s).unpaced ∧ field (runState ops s) = field s :=
  runState_induction (P := fun u => u.unpaced ∧ field u = field s) (fun i hi u ⟨hu, hfield⟩ =>
    ⟨execState_unpaced (hlo i hi) (hhi i hi) (hreset i hi) hu, (hkeep i hi u hu).trans hfield⟩) ⟨h, rfl⟩

/-- Without pacing every write finds the transmitter idle. -/
theorem dataWrites_of_unpaced : dataWrites false ops s = ops.filterMap dataByte? := by
  induction ops generalizing s with
  | nil => rfl
  | cons i ops ih =>
    rw [lacks_cons] at hlo hhi hreset
    rw [dataWrites_cons, if_pos ((txBusy_eq_false_iff s).mpr h.txCnt_eq),
      ih hlo.2 hhi.2 hreset.2 (execState_unpaced hlo.1 hhi.1 hreset.1 h), List.filterMap_cons]
    cases dataByte? i <;> rfl

end UnpacedRun

/-- Settles O50: the state without pacing lasts, and nothing moves in it but the bytes sent. -/
theorem divisorZeroNeverPacesOrRefills : Obligations.DivisorZeroNeverPacesOrRefills := by
  intro s ops hdiv htx hrx hlo hhi hreset
  have hs : s.unpaced := ⟨hdiv, htx, hrx⟩
  have hno : ∀ i ∈ ops, ∀ u : State, u.unpaced → fetches i u.quantum u.rxCnt = false := fun i hi _ hu =>
    not_fetches_of_unpaced (hreset i hi) hu
  obtain ⟨⟨-, hend, hrest⟩, hbyte⟩ := runState_unpaced hlo hhi hreset hs (field := State.rxByte)
    fun i hi u hu => execState_rxByte_of_not_fetches (hno i hi u hu)
  obtain ⟨-, hpending⟩ := runState_unpaced hlo hhi hreset hs (field := State.srcPending)
    fun i hi u hu => execState_srcPending_of_not_fetches (hno i hi u hu)
  obtain ⟨-, hdiag⟩ := runState_unpaced hlo hhi hreset hs (field := State.diag)
    fun i _ u hu => execState_diag_of_idle hu.txCnt_eq i
  refine ⟨_, runOps_eq_next _ _, (txBusy_eq_false_iff _).mpr hend, hrest, ?_, hbyte, hpending, hdiag,
    fun hbound => ?_⟩
  · rw [State.rxReady, hrest, runState_srcAvail hpending]
    rfl
  · rw [runState_sink_of_bound ops hbound, dataWrites_of_unpaced hlo hhi hreset hs]

end Sys2Proof.Machine
end

section
/-! PROOFS. The polling loops (spec/30_encoding.md R58): a poll changes the output record only, so a loop is a number of
`STEP`s. -/

namespace Sys2Proof.Machine

/-- One poll, and a `STEP` where it does not end the loop. -/
theorem waitLoop_succ (done : Byte → Bool) (fuel : Nat) (s : State) : waitLoop done (fuel + 1) s =
    if done (statusByte s) then .ok (execState .rdStatus s)
    else waitLoop done fuel (execState .step (execState .rdStatus s)) := by
  simp only [waitLoop, exec_eq_next]
  rfl

theorem waitTx_succ_of_idle {s : State} (h : s.txCnt = 0) (fuel : Nat) :
    waitTx (fuel + 1) s = .ok (execState .rdStatus s) := by
  rw [waitTx, waitLoop_succ, (statusByte_bits s).1, (txBusy_eq_false_iff s).mpr h]
  rfl

theorem waitTx_succ_of_busy {s : State} (h : 0 < s.txCnt) (fuel : Nat) :
    waitTx (fuel + 1) s = waitTx fuel (execState .step (execState .rdStatus s)) := by
  rw [waitTx, waitLoop_succ, (statusByte_bits s).1, (txBusy_iff s).mpr h]
  rfl

/-- A running countdown lasts one step more than it does a step later (R77). -/
theorem stepsToExpiry_eq_succ {q : Quantum} {c : Nat} (hq : q.wf = true) (hc : 0 < c) :
    stepsToExpiry q c = stepsToExpiry q (dec q c) + 1 := by
  refine eq_of_forall_lt_iff fun k => ?_
  rw [dec_eq_sub, lt_stepsToExpiry_iff hq]
  cases k with
  | zero => simpa using hc
  | succ k =>
    rw [Nat.succ_lt_succ_iff, lt_stepsToExpiry_iff hq, Nat.add_mul]
    omega

theorem stepsToExpiry_zero {q : Quantum} (hq : q.wf = true) : stepsToExpiry q 0 = 0 := by
  by_contra hne
  have := (lt_stepsToExpiry_iff hq).mp (Nat.pos_of_ne_zero hne)
  omega

theorem txCnt_after_poll (s : State) :
    (execState .step (execState .rdStatus s)).txCnt = dec s.quantum s.txCnt := by
  rw [execState_txCnt, execState_txCnt, execState_quantum]
  rfl

theorem quantum_after_poll (s : State) : (execState .step (execState .rdStatus s)).quantum = s.quantum := by
  rw [execState_quantum, execState_quantum]

/-- One poll more than the countdown lasts finds the transmitter idle. -/
theorem waitTx_ends {n : Nat} {s : State} (hq : s.quantum.wf = true) (hn : stepsToExpiry s.quantum s.txCnt = n) :
    ∃ t, waitTx (n + 1) s = .ok t ∧ t.txBusy = false ∧ t.sink = s.sink := by
  induction n generalizing s with
  | zero =>
    have hidle : s.txCnt = 0 := by
      by_contra hne
      rw [stepsToExpiry_eq_succ hq (Nat.pos_of_ne_zero hne)] at hn
      exact Nat.succ_ne_zero _ hn
    exact ⟨_, waitTx_succ_of_idle hidle 0, (txBusy_eq_false_iff _).mpr ((execState_txCnt _ _).trans hidle),
      execState_sink _ _⟩
  | succ n ih =>
    have hbusy : 0 < s.txCnt := by
      by_contra hidle
      rw [Nat.eq_zero_of_not_pos hidle, stepsToExpiry_zero hq] at hn
      exact Nat.succ_ne_zero n hn.symm
    rw [stepsToExpiry_eq_succ hq hbusy, Nat.succ_inj, ← txCnt_after_poll, ← quantum_after_poll] at hn
    obtain ⟨t, hwait, hidle, hsink⟩ := ih (by rwa [quantum_after_poll]) hn
    refine ⟨t, (waitTx_succ_of_busy hbusy _).trans hwait, hidle, hsink.trans ?_⟩
    rw [execState_sink, execState_sink]
    rfl

/-- Fewer polls all find it busy. -/
theorem waitTx_outOfPatience {fuel : Nat} {s : State} (hq : s.quantum.wf = true)
    (hfuel : fuel ≤ stepsToExpiry s.quantum s.txCnt) : waitTx fuel s = .error .outOfPatience := by
  induction fuel generalizing s with
  | zero => rfl
  | succ fuel ih =>
    have hbusy : 0 < s.txCnt := by
      by_contra hidle
      rw [Nat.eq_zero_of_not_pos hidle, stepsToExpiry_zero hq] at hfuel
      exact Nat.not_succ_le_zero fuel hfuel
    rw [waitTx_succ_of_busy hbusy]
    refine ih (by rwa [quantum_after_poll]) ?_
    rw [stepsToExpiry_eq_succ hq hbusy] at hfuel
    rw [quantum_after_poll, txCnt_after_poll]
    exact Nat.le_of_succ_le_succ hfuel

/-- Settles O56: each poll but the last finds the transmitter busy, and the `STEP` after it lowers the countdown. -/
theorem waitTxEndsOnTime : Obligations.WaitTxEndsOnTime := fun _ hq =>
  ⟨waitTx_ends hq rfl, fun _ hfuel => waitTx_outOfPatience hq hfuel⟩

theorem waitRx_succ_of_not_ready {s : State} (h : s.rxReady = false) (fuel : Nat) :
    waitRx (fuel + 1) s = waitRx fuel (execState .step (execState .rdStatus s)) := by
  rw [waitRx, waitLoop_succ, (statusByte_bits s).2.1, h]
  rfl

/-- Settles O57, by induction over the polls. -/
theorem waitRxNeverEndsWhenExhausted : Obligations.WaitRxNeverEndsWhenExhausted := by
  intro s fuel hempty
  induction fuel generalizing s with
  | zero => rfl
  | succ fuel ih =>
    rw [waitRx_succ_of_not_ready (rxReady_of_empty hempty)]
    exact ih _ (execState_srcPending_of_empty (execState_srcPending_of_empty hempty _) _)

end Sys2Proof.Machine
end
